-- ==== Sys2Proof/Word.lean ====
section
/-! DEFINITION. The word types of the Pychee CHIP-8 core (spec 10_state.md R21 to R26, 30_encoding.md R71). -/

namespace Sys2Proof

/-- A byte: a general register or a memory cell (R21, R28), or the immediate NN (R73). -/
abbrev Byte := BitVec 8

/-- A 16-bit word: an opcode (R70), the program counter or a stack entry (R24, R26). -/
abbrev Word := BitVec 16

/-- A 12-bit address: the field NNN (R71) and the index register (R23). -/
abbrev Addr := BitVec 12

/-- A four-bit field of the opcode (R71). -/
abbrev Nibble := BitVec 4

/-- The number of a general register, V0 to VF (R21). -/
abbrev RegIx := Fin 16

/-- The number of the flag register VF (R13, R22). -/
abbrev vf : RegIx := 15

end Sys2Proof
end

