-- ==== Sys2Proof/Syntax.lean ====
section
/-! DEFINITION. The instructions of the core, one constructor per row of spec/opcode_table.json. A field the handler
ignores (spec 30_encoding.md R81) is kept as raw bits, so that a word can be written back whole and a report can give
the opcode that was fetched (60_exceptions.md R201): notes/assumptions/15.md. -/

namespace Sys2Proof

inductive Instr where
  /-- 00E0 CLS (R101). -/
  | cls
  /-- 00EE RET (R103). -/
  | ret
  /-- 0NNN other than 00E0 and 00EE: UnknownOpcode (R76, R180). -/
  | unknown0NNN (nnn : Addr)
  /-- 1NNN JP NNN (R104). -/
  | jp (nnn : Addr)
  /-- 2NNN CALL NNN (R105). -/
  | call (nnn : Addr)
  /-- 3XNN SE VX, NN (R106). -/
  | seImm (x : RegIx) (nn : Byte)
  /-- 4XNN SNE VX, NN (R107). -/
  | sneImm (x : RegIx) (nn : Byte)
  /-- 5XYn SE VX, VY; the low nibble is ignored (R80, R108). -/
  | seReg (x y : RegIx) (ignored : Nibble)
  /-- 6XNN LD VX, NN (R120). -/
  | ldImm (x : RegIx) (nn : Byte)
  /-- 7XNN ADD VX, NN (R121). -/
  | addImm (x : RegIx) (nn : Byte)
  /-- 8XY0 LD VX, VY (R122). -/
  | ldReg (x y : RegIx)
  /-- 8XY1 OR VX, VY (R123). -/
  | orReg (x y : RegIx)
  /-- 8XY2 AND VX, VY (R124). -/
  | andReg (x y : RegIx)
  /-- 8XY3 XOR VX, VY (R125). -/
  | xorReg (x y : RegIx)
  /-- 8XY4 ADD VX, VY (R126). -/
  | addReg (x y : RegIx)
  /-- 8XY5 SUB VX, VY (R127). -/
  | subReg (x y : RegIx)
  /-- 8XY6 SHR VX; Y is ignored (R128). -/
  | shr (x : RegIx) (ignoredY : Nibble)
  /-- 8XY7 SUBN VX, VY (R129). -/
  | subnReg (x y : RegIx)
  /-- 8XYE SHL VX; Y is ignored (R130). -/
  | shl (x : RegIx) (ignoredY : Nibble)
  /-- 8XY8: UnknownOpcode (R77, R180). -/
  | unknown8XY8 (x y : Nibble)
  /-- 8XY9: UnknownOpcode (R77, R180). -/
  | unknown8XY9 (x y : Nibble)
  /-- 8XYA: UnknownOpcode (R77, R180). -/
  | unknown8XYA (x y : Nibble)
  /-- 8XYB: UnknownOpcode (R77, R180). -/
  | unknown8XYB (x y : Nibble)
  /-- 8XYC: UnknownOpcode (R77, R180). -/
  | unknown8XYC (x y : Nibble)
  /-- 8XYD: UnknownOpcode (R77, R180). -/
  | unknown8XYD (x y : Nibble)
  /-- 8XYF: UnknownOpcode (R77, R180). -/
  | unknown8XYF (x y : Nibble)
  /-- 9XYn SNE VX, VY; the low nibble is ignored (R80, R109). -/
  | sneReg (x y : RegIx) (ignored : Nibble)
  /-- ANNN LD I, NNN (R140). -/
  | ldI (nnn : Addr)
  /-- BNNN JP V0, NNN (R110). -/
  | jpV0 (nnn : Addr)
  /-- CXNN RND VX, NN (R146). -/
  | rnd (x : RegIx) (nn : Byte)
  /-- DXYN DRW VX, VY, N; N is a count of rows (R73, R162). -/
  | drw (x y : RegIx) (n : Fin 16)
  /-- EX9E, in CHIP-8 SKP VX: NotImplemented (R78, R181). -/
  | skpStub (x : Nibble)
  /-- EXA1, in CHIP-8 SKNP VX: NotImplemented (R78, R181). -/
  | sknpStub (x : Nibble)
  /-- Every other Ennn: NotImplemented (R78, R181). -/
  | notHandledE (nnn : Addr)
  /-- FX1E ADD I, VX (R142). -/
  | addI (x : RegIx)
  /-- FX29 LD F, VX (R144). -/
  | ldF (x : RegIx)
  /-- FX07, in CHIP-8 LD VX, DT: NotImplemented (R79, R181). -/
  | ldVxDtStub (x : Nibble)
  /-- FX0A, in CHIP-8 LD VX, K: NotImplemented (R79, R181). -/
  | ldVxKStub (x : Nibble)
  /-- FX15, in CHIP-8 LD DT, VX: NotImplemented (R79, R181). -/
  | ldDtVxStub (x : Nibble)
  /-- FX18, in CHIP-8 LD ST, VX: NotImplemented (R79, R181). -/
  | ldStVxStub (x : Nibble)
  /-- FX33, in CHIP-8 LD B, VX: NotImplemented (R79, R181). -/
  | ldBVxStub (x : Nibble)
  /-- FX55, in CHIP-8 LD [I], VX: NotImplemented (R79, R181). -/
  | ldMemVxStub (x : Nibble)
  /-- FX65, in CHIP-8 LD VX, [I]: NotImplemented (R79, R181). -/
  | ldVxMemStub (x : Nibble)
  /-- FXnn with any other low byte: UnknownOpcode (R79, R180). -/
  | unknownFXnn (x : Nibble) (nn : Byte)
  deriving DecidableEq, Repr

end Sys2Proof
end

