-- ==== Sys2Proof/WellFormed.lean ====
section
/-! DEFINITION. Which instruction terms stand for a word of the hardware. Every field is as wide as its bits, so only
the three fallback rows need a check: a fallback row loses to the more specific rows of its family
(spec 30_encoding.md R76, R78, R79, R86). -/

namespace Sys2Proof

/-- The low bytes of family 0xF that select a row of their own (R79). -/
def namedFLowBytes : List Byte := [0x1E, 0x29, 0x07, 0x0A, 0x15, 0x18, 0x33, 0x55, 0x65]

/-- The low bytes of family 0xE that select a row of their own (R78). -/
def namedELowBytes : List Byte := [0x9E, 0xA1]

/-- The low 12 bits of family 0x0 that select a row of their own (R76). -/
def named0Words : List Addr := [0x0E0, 0x0EE]

/-- The term is what some word decodes to (R86). -/
def Instr.wf : Instr → Bool
  | .unknown0NNN nnn => !(named0Words.contains nnn)
  | .notHandledE nnn => !(namedELowBytes.contains (nnn.extractLsb' 0 8))
  | .unknownFXnn _ nn => !(namedFLowBytes.contains nn)
  | .cls | .ret | .jp _ | .call _ | .seImm _ _ | .sneImm _ _ | .seReg _ _ _ | .ldImm _ _ | .addImm _ _
  | .ldReg _ _ | .orReg _ _ | .andReg _ _ | .xorReg _ _ | .addReg _ _ | .subReg _ _ | .shr _ _ | .subnReg _ _
  | .shl _ _ | .unknown8XY8 _ _ | .unknown8XY9 _ _ | .unknown8XYA _ _ | .unknown8XYB _ _ | .unknown8XYC _ _
  | .unknown8XYD _ _ | .unknown8XYF _ _ | .sneReg _ _ _ | .ldI _ | .jpV0 _ | .rnd _ _ | .drw _ _ _
  | .skpStub _ | .sknpStub _ | .addI _ | .ldF _ | .ldVxDtStub _ | .ldVxKStub _ | .ldDtVxStub _ | .ldStVxStub _
  | .ldBVxStub _ | .ldMemVxStub _ | .ldVxMemStub _ => true

end Sys2Proof
end

