-- ==== Sys2Proof/Decode.lean ====
section
/-! DEFINITION. From bytes to an instruction and back (spec 30_encoding.md; byte order 20_memory.md R51): the fields of
a word, the two-level dispatch, the decoder on bytes, the encoder, and the rows of the opcode table. -/

namespace Sys2Proof

/-! ### Fields (R71) -/

/-- The first nibble F, bits 15 to 12. -/
def opF (w : Word) : Nibble := w.extractLsb' 12 4

/-- The field X, bits 11 to 8, as raw bits. -/
def opX (w : Word) : Nibble := w.extractLsb' 8 4

/-- The field Y, bits 7 to 4, as raw bits. -/
def opY (w : Word) : Nibble := w.extractLsb' 4 4

/-- The field N, bits 3 to 0, as raw bits. -/
def opN (w : Word) : Nibble := w.extractLsb' 0 4

/-- The field NN, bits 7 to 0. -/
def opNN (w : Word) : Byte := w.extractLsb' 0 8

/-- The field NNN, bits 11 to 0. -/
def opNNN (w : Word) : Addr := w.extractLsb' 0 12

/-- A register field names the register of that number (R73). -/
def regOf (b : Nibble) : RegIx := b.toFin

/-! ### Dispatch (R74) -/

/-- Family 0x0, resolved on the full opcode (R76). -/
def decodeFamily0 (w : Word) : Instr :=
  if w = 0x00E0#16 then .cls
  else if w = 0x00EE#16 then .ret
  else .unknown0NNN (opNNN w)

/-- Family 0x8, resolved on N (R77). -/
def decodeFamily8 (w : Word) : Instr :=
  let x := opX w
  let y := opY w
  match opN w with
  | 0x0#4 => .ldReg (regOf x) (regOf y)
  | 0x1#4 => .orReg (regOf x) (regOf y)
  | 0x2#4 => .andReg (regOf x) (regOf y)
  | 0x3#4 => .xorReg (regOf x) (regOf y)
  | 0x4#4 => .addReg (regOf x) (regOf y)
  | 0x5#4 => .subReg (regOf x) (regOf y)
  | 0x6#4 => .shr (regOf x) y
  | 0x7#4 => .subnReg (regOf x) (regOf y)
  | 0x8#4 => .unknown8XY8 x y
  | 0x9#4 => .unknown8XY9 x y
  | 0xA#4 => .unknown8XYA x y
  | 0xB#4 => .unknown8XYB x y
  | 0xC#4 => .unknown8XYC x y
  | 0xD#4 => .unknown8XYD x y
  | 0xE#4 => .shl (regOf x) y
  | _     => .unknown8XYF x y      -- 0xF, the one value left

/-- Family 0xE, the keyboard skips and every other low byte (R78). -/
def decodeFamilyE (w : Word) : Instr :=
  match opNN w with
  | 0x9E#8 => .skpStub (opX w)
  | 0xA1#8 => .sknpStub (opX w)
  | _      => .notHandledE (opNNN w)

/-- Family 0xF, resolved on NN (R79). -/
def decodeFamilyF (w : Word) : Instr :=
  let x := opX w
  match opNN w with
  | 0x07#8 => .ldVxDtStub x
  | 0x0A#8 => .ldVxKStub x
  | 0x15#8 => .ldDtVxStub x
  | 0x18#8 => .ldStVxStub x
  | 0x1E#8 => .addI (regOf x)
  | 0x29#8 => .ldF (regOf x)
  | 0x33#8 => .ldBVxStub x
  | 0x55#8 => .ldMemVxStub x
  | 0x65#8 => .ldVxMemStub x
  | nn     => .unknownFXnn x nn

/-- The instruction a 16-bit word selects; every word selects exactly one (R74, R75). -/
def decodeWord (w : Word) : Instr :=
  let x := regOf (opX w)
  let y := regOf (opY w)
  match opF w with
  | 0x0#4 => decodeFamily0 w
  | 0x1#4 => .jp (opNNN w)
  | 0x2#4 => .call (opNNN w)
  | 0x3#4 => .seImm x (opNN w)
  | 0x4#4 => .sneImm x (opNN w)
  | 0x5#4 => .seReg x y (opN w)
  | 0x6#4 => .ldImm x (opNN w)
  | 0x7#4 => .addImm x (opNN w)
  | 0x8#4 => decodeFamily8 w
  | 0x9#4 => .sneReg x y (opN w)
  | 0xA#4 => .ldI (opNNN w)
  | 0xB#4 => .jpV0 (opNNN w)
  | 0xC#4 => .rnd x (opNN w)
  | 0xD#4 => .drw x y (opN w).toFin
  | 0xE#4 => decodeFamilyE w
  | _     => decodeFamilyF w       -- 0xF, the one value left

/-! ### Bytes (R51, R70) -/

/-- The big-endian pair: the first byte is bits 15 to 8 (R51). -/
def bigEndianWord (hi lo : Byte) : Word := hi ++ lo

/-- The high byte of a word, the one at the lower address (R51). -/
def highByte (w : Word) : Byte := w.extractLsb' 8 8

/-- The low byte of a word, the one at the higher address (R51). -/
def lowByte (w : Word) : Byte := w.extractLsb' 0 8

/-- Why bytes give no instruction. No 16-bit word is refused (R74); only a missing byte is. -/
inductive DecodeError where
  /-- Fewer than the two bytes of an instruction (R70). -/
  | truncated
  deriving DecidableEq, Repr

/-- The decoder on bytes: it consumes exactly two and answers with the rest (R70). -/
def decode : List Byte → Except DecodeError (Instr × List Byte)
  | hi :: lo :: rest => .ok (decodeWord (bigEndianWord hi lo), rest)
  | [_] => .error .truncated
  | [] => .error .truncated

/-! ### Encoder (R72) -/

/-- Format `A`: a family and a 12-bit address. -/
def formatA (f : Nibble) (nnn : Addr) : Word := f ++ nnn

/-- Formats `XK` and `XS`: a family, a register field and a low byte. -/
def formatXK (f x : Nibble) (nn : Byte) : Word := f ++ x ++ nn

/-- Formats `XY`, `XYS` and `XYN`: four nibbles. -/
def formatXYN (f x y n : Nibble) : Word := f ++ x ++ y ++ n

/-- The raw bits of a register number (R73). -/
def regBits (r : RegIx) : Nibble := BitVec.ofFin r

/-- The word of an instruction (R72, R75 to R79). -/
def encode : Instr → Word
  | .cls => 0x00E0
  | .ret => 0x00EE
  | .unknown0NNN nnn => formatA 0x0 nnn
  | .jp nnn => formatA 0x1 nnn
  | .call nnn => formatA 0x2 nnn
  | .seImm x nn => formatXK 0x3 (regBits x) nn
  | .sneImm x nn => formatXK 0x4 (regBits x) nn
  | .seReg x y n => formatXYN 0x5 (regBits x) (regBits y) n
  | .ldImm x nn => formatXK 0x6 (regBits x) nn
  | .addImm x nn => formatXK 0x7 (regBits x) nn
  | .ldReg x y => formatXYN 0x8 (regBits x) (regBits y) 0x0
  | .orReg x y => formatXYN 0x8 (regBits x) (regBits y) 0x1
  | .andReg x y => formatXYN 0x8 (regBits x) (regBits y) 0x2
  | .xorReg x y => formatXYN 0x8 (regBits x) (regBits y) 0x3
  | .addReg x y => formatXYN 0x8 (regBits x) (regBits y) 0x4
  | .subReg x y => formatXYN 0x8 (regBits x) (regBits y) 0x5
  | .shr x y => formatXYN 0x8 (regBits x) y 0x6
  | .subnReg x y => formatXYN 0x8 (regBits x) (regBits y) 0x7
  | .unknown8XY8 x y => formatXYN 0x8 x y 0x8
  | .unknown8XY9 x y => formatXYN 0x8 x y 0x9
  | .unknown8XYA x y => formatXYN 0x8 x y 0xA
  | .unknown8XYB x y => formatXYN 0x8 x y 0xB
  | .unknown8XYC x y => formatXYN 0x8 x y 0xC
  | .unknown8XYD x y => formatXYN 0x8 x y 0xD
  | .shl x y => formatXYN 0x8 (regBits x) y 0xE
  | .unknown8XYF x y => formatXYN 0x8 x y 0xF
  | .sneReg x y n => formatXYN 0x9 (regBits x) (regBits y) n
  | .ldI nnn => formatA 0xA nnn
  | .jpV0 nnn => formatA 0xB nnn
  | .rnd x nn => formatXK 0xC (regBits x) nn
  | .drw x y n => formatXYN 0xD (regBits x) (regBits y) (BitVec.ofFin n)
  | .skpStub x => formatXK 0xE x 0x9E
  | .sknpStub x => formatXK 0xE x 0xA1
  | .notHandledE nnn => formatA 0xE nnn
  | .addI x => formatXK 0xF (regBits x) 0x1E
  | .ldF x => formatXK 0xF (regBits x) 0x29
  | .ldVxDtStub x => formatXK 0xF x 0x07
  | .ldVxKStub x => formatXK 0xF x 0x0A
  | .ldDtVxStub x => formatXK 0xF x 0x15
  | .ldStVxStub x => formatXK 0xF x 0x18
  | .ldBVxStub x => formatXK 0xF x 0x33
  | .ldMemVxStub x => formatXK 0xF x 0x55
  | .ldVxMemStub x => formatXK 0xF x 0x65
  | .unknownFXnn x nn => formatXK 0xF x nn

/-- The two bytes of an instruction as memory holds them, the high byte first (R51). -/
def encodeBytes (i : Instr) : List Byte := [highByte (encode i), lowByte (encode i)]

/-! ### The opcode table (R86) -/

/-- A row of spec/opcode_table.json: it matches `w` when `w & mask = pattern` (R86). -/
structure TableRow where
  mask    : Word
  pattern : Word
  deriving DecidableEq, Repr

/-- The row matches the word (R86). -/
def TableRow.accepts (r : TableRow) (w : Word) : Bool := w &&& r.mask == r.pattern

/-- The row of an instruction, from the table's `mask` and `match` columns. -/
def rowOf : Instr → TableRow
  | .cls => ⟨0xFFFF, 0x00E0⟩
  | .ret => ⟨0xFFFF, 0x00EE⟩
  | .unknown0NNN _ => ⟨0xF000, 0x0000⟩
  | .jp _ => ⟨0xF000, 0x1000⟩
  | .call _ => ⟨0xF000, 0x2000⟩
  | .seImm _ _ => ⟨0xF000, 0x3000⟩
  | .sneImm _ _ => ⟨0xF000, 0x4000⟩
  | .seReg _ _ _ => ⟨0xF000, 0x5000⟩
  | .ldImm _ _ => ⟨0xF000, 0x6000⟩
  | .addImm _ _ => ⟨0xF000, 0x7000⟩
  | .ldReg _ _ => ⟨0xF00F, 0x8000⟩
  | .orReg _ _ => ⟨0xF00F, 0x8001⟩
  | .andReg _ _ => ⟨0xF00F, 0x8002⟩
  | .xorReg _ _ => ⟨0xF00F, 0x8003⟩
  | .addReg _ _ => ⟨0xF00F, 0x8004⟩
  | .subReg _ _ => ⟨0xF00F, 0x8005⟩
  | .shr _ _ => ⟨0xF00F, 0x8006⟩
  | .subnReg _ _ => ⟨0xF00F, 0x8007⟩
  | .unknown8XY8 _ _ => ⟨0xF00F, 0x8008⟩
  | .unknown8XY9 _ _ => ⟨0xF00F, 0x8009⟩
  | .unknown8XYA _ _ => ⟨0xF00F, 0x800A⟩
  | .unknown8XYB _ _ => ⟨0xF00F, 0x800B⟩
  | .unknown8XYC _ _ => ⟨0xF00F, 0x800C⟩
  | .unknown8XYD _ _ => ⟨0xF00F, 0x800D⟩
  | .shl _ _ => ⟨0xF00F, 0x800E⟩
  | .unknown8XYF _ _ => ⟨0xF00F, 0x800F⟩
  | .sneReg _ _ _ => ⟨0xF000, 0x9000⟩
  | .ldI _ => ⟨0xF000, 0xA000⟩
  | .jpV0 _ => ⟨0xF000, 0xB000⟩
  | .rnd _ _ => ⟨0xF000, 0xC000⟩
  | .drw _ _ _ => ⟨0xF000, 0xD000⟩
  | .skpStub _ => ⟨0xF0FF, 0xE09E⟩
  | .sknpStub _ => ⟨0xF0FF, 0xE0A1⟩
  | .notHandledE _ => ⟨0xF000, 0xE000⟩
  | .addI _ => ⟨0xF0FF, 0xF01E⟩
  | .ldF _ => ⟨0xF0FF, 0xF029⟩
  | .ldVxDtStub _ => ⟨0xF0FF, 0xF007⟩
  | .ldVxKStub _ => ⟨0xF0FF, 0xF00A⟩
  | .ldDtVxStub _ => ⟨0xF0FF, 0xF015⟩
  | .ldStVxStub _ => ⟨0xF0FF, 0xF018⟩
  | .ldBVxStub _ => ⟨0xF0FF, 0xF033⟩
  | .ldMemVxStub _ => ⟨0xF0FF, 0xF055⟩
  | .ldVxMemStub _ => ⟨0xF0FF, 0xF065⟩
  | .unknownFXnn _ _ => ⟨0xF000, 0xF000⟩

/-- The words of the table whose whole family is one row, and the fallback rows (R75, R86). -/
def familyRows : List TableRow :=
  [0x0, 0x1, 0x2, 0x3, 0x4, 0x5, 0x6, 0x7, 0x9, 0xA, 0xB, 0xC, 0xD, 0xE, 0xF].map
    fun f => ⟨0xF000, formatA f 0⟩

/-- The rows of family 0x8 (R77). -/
def family8Rows : List TableRow :=
  [0x0, 0x1, 0x2, 0x3, 0x4, 0x5, 0x6, 0x7, 0x8, 0x9, 0xA, 0xB, 0xC, 0xD, 0xE, 0xF].map
    fun n => ⟨0xF00F, formatXYN 0x8 0 0 n⟩

/-- The rows with a fixed low byte or a fixed word (R76, R78, R79). -/
def namedRows : List TableRow :=
  named0Words.map (fun nnn => ⟨0xFFFF, formatA 0x0 nnn⟩)
    ++ namedELowBytes.map (fun nn => ⟨0xF0FF, formatXK 0xE 0 nn⟩)
    ++ namedFLowBytes.map (fun nn => ⟨0xF0FF, formatXK 0xF 0 nn⟩)

/-- The 44 rows of spec/opcode_table.json. -/
def opcodeTable : List TableRow := familyRows ++ family8Rows ++ namedRows

/-! ### The host's reading of a table row -/

/-- What the decoder reads from an instruction whose `nbits` bits are `w`, bit 0 the least significant bit of its one
word; bits above `nbits` are 0. The word is laid out high byte first (R51). -/
def decodeTableWord (nbits w : Nat) : Option Instr :=
  let word := BitVec.ofNat 16 (w % 2 ^ nbits)
  match decode [highByte word, lowByte word] with
  | .ok (i, _) => some i
  | .error _ => none

end Sys2Proof
end

