-- ==== Sys2Proof/Config.lean ====
section
/-! DEFINITION. What an implementation of the core fixes (spec 00_scope.md R9): the names of the alternatives of each
parameter, the fixed dimensions, and the one free value, the random byte of CXNN. The numbers the names stand for and
the default choice are in Machine/Params.lean. -/

namespace Sys2Proof.Config

/-- `MEM_SIZE` (R9, D1): the canonical 4096 bytes, or the 4095 of the reference. -/
inductive MemSize where
  | canonical
  | reference
  deriving DecidableEq, Repr

/-- `CARRY_THRESHOLD` (R9, D2): the reference's condition, or the standard one. -/
inductive CarryThreshold where
  | reference
  | standard
  deriving DecidableEq, Repr

/-- `SHL_MODE` (R9, D3): mask the shifted value to 8 bits, or give 8XYE no meaning where the reference leaves 8 bits. -/
inductive ShlMode where
  | mask
  | refuse
  deriving DecidableEq, Repr

/-- `INDEX_ADD_MOD` (R9, D4): the reference's 255, or one of the alternatives 256 and 4096. -/
inductive IndexAddMod where
  | reference
  | byteRange
  | addressRange
  deriving DecidableEq, Repr

/-- The parameters a model takes (R9). -/
structure Params where
  memSize  : MemSize
  carry    : CarryThreshold
  shl      : ShlMode
  indexMod : IndexAddMod
  deriving DecidableEq, Repr

/-- `STACK_DEPTH` (R9). -/
abbrev stackDepth : Nat := 16

/-- `FB_ROWS` (R9). -/
abbrev fbRows : Nat := 32

/-- `FB_COLS` (R9). -/
abbrev fbCols : Nat := 64

/-- `PROGRAM_BASE` (R9). -/
abbrev programBase : Nat := 0x200

/-- `FONT_BASE` (R9). -/
abbrev fontBase : Nat := 0x000

/-- `GLYPH_BYTES` (R9). -/
abbrev glyphBytes : Nat := 5

/-- The byte that the k-th CXNN draws (R16, R146, D22): a FREE VALUE, any byte, under no law. DESIGN CHOICE, notes/assumptions/7.md. -/
opaque randByte : Nat → Byte

end Sys2Proof.Config
end

