-- ==== Sys2Proof/Machine/Params.lean ====
section
/-! DEFINITION. The numbers the parameters stand for, the default choice of each (spec 00_scope.md R9), and the values
the model names where the spec leaves a reset value OPEN. -/

namespace Sys2Proof.Machine

/-- `MEM_SIZE` in bytes (R9, D1, C1). -/
def memSizeBytes : Config.MemSize → Nat
  | .canonical => 4096
  | .reference => 4095

/-- `CARRY_THRESHOLD`: a carry is a sum above this (R9, R126, D2, C4). -/
def carryThreshold : Config.CarryThreshold → Nat
  | .reference => 256
  | .standard => 255

/-- `INDEX_ADD_MOD`: the modulus of FX1E (R9, R142, D4, C2). -/
def indexAddMod : Config.IndexAddMod → Nat
  | .reference => 255
  | .byteRange => 256
  | .addressRange => 4096

/-- The defaults of R9: 4096 bytes, threshold 256, `mask`, modulus 255. notes/assumptions/3.md. -/
def defaultParams : Config.Params :=
  { memSize := .canonical, carry := .reference, shl := .mask, indexMod := .reference }

/-- `INIT_V[i]`, OPEN in the spec (R21, R37, D12). DESIGN CHOICE 0, unsafe: notes/assumptions/4.md. -/
def initV : Byte := 0

/-- `INIT_I`, OPEN in the spec (R23, R37, D12). DESIGN CHOICE 0, unsafe: notes/assumptions/5.md. -/
def initI : Addr := 0

/-- What an address with no listed byte reads as, `INIT_MEM` where nothing is loaded, OPEN in the spec (R28, D17).
DESIGN CHOICE 0, unsafe: notes/assumptions/6.md. -/
def unlistedByte : Byte := 0

end Sys2Proof.Machine
end

