-- ==== Sys2Proof/Machine/State.lean ====
section
/-! DEFINITION. The state of the core (spec 10_state.md), the conditions it reports (60_exceptions.md R201, R202), and
its reset (R37, 70_reset_and_hazards.md R230). Plain data throughout. -/

namespace Sys2Proof.Machine

/-- The fatal faults, each with what it records (R202). The core TAKES one: the step that raises it answers a next
state in which `fault` holds it (R204), so no step answers `Host.Outcome.fault`. Safe: the machine goes nowhere
after it, where the reference might go on (D9). -/
inductive Fault where
  /-- Code 3. Raised by 2NNN with 16 entries in use; records the CALL's own address (R105). Safe (D5). -/
  | stackOverflow (address : Word)
  /-- Code 4. Raised by 00EE with no entry in use; records the RET's own address (R103). Safe (D6). -/
  | stackUnderflow (address : Word)
  /-- Code 5. Raised by the fetch and by DXYN on a read at or above `MEM_SIZE`; records the first such address
  (R52, R100, R162). Safe (D7). -/
  | memoryOutOfRange (address : Nat)
  /-- Code 6. Raised by the host's `load` when the bytes do not fit; records offset and length (R55). Safe (D8). -/
  | romLoadOutOfRange (offset length : Nat)
  deriving DecidableEq, Repr

/-- What the core emits on its one reporting channel (R200 to R202). -/
inductive Condition where
  /-- Code 1, with the opcode fetched (R180, R201). -/
  | unknownOpcode (opcode : Word)
  /-- Code 2, with the opcode fetched (R181, R201). -/
  | notImplemented (opcode : Word)
  /-- Codes 3 to 6 (R202). -/
  | fault (f : Fault)
  deriving DecidableEq, Repr

/-- Why the model gives a step no successor. -/
inductive Refusal where
  /-- Raised by an arm of `exec` that has no meaning yet; no arm does. Safe. -/
  | notModelled (mnemonic : String)
  /-- Raised by 8XYE under `SHL_MODE = refuse` with `V[X] >= 0x80`: the refusal mark of R206 (R130, D3). Safe. -/
  | shlRefused
  deriving DecidableEq, Repr

/-- Memory as (address, byte) pairs (R28, R50); an address with no pair reads as `unlistedByte`. -/
abbrev Memory := List Host.Cell

/-- The canonical form: addresses strictly rising, and no byte listed that an unlisted address reads as anyway. -/
abbrev Memory.wf (m : Memory) : Prop :=
  m.Pairwise (fun p q => p.1 < q.1) ∧ ∀ p ∈ m, p.2 ≠ unlistedByte

/-- The 32-row by 64-column grid of pixels (R27). -/
abbrev Framebuffer := Vector (Vector Bool 64) 32

/-- The framebuffer with every pixel 0 (R27). -/
def Framebuffer.clear : Framebuffer := Vector.replicate 32 (Vector.replicate 64 false)

/-- The core's state: exactly the ten components of R20. -/
structure Arch where
  /-- V0 to VF (R21, R22). -/
  v       : Vector Byte 16
  /-- The index register I (R23). -/
  i       : Addr
  /-- The program counter (R24). -/
  pc      : Word
  /-- The stack pointer, the count of entries in use, 0 to 16 (R25). -/
  sp      : Fin 17
  /-- The call stack (R26). -/
  stack   : Vector Word 16
  /-- The framebuffer (R27). -/
  gfx     : Framebuffer
  /-- Memory (R28). -/
  mem     : Memory
  /-- The running flag (R29). -/
  running : Bool
  /-- The cycle counter (R30). -/
  cycle   : Nat
  /-- The fault status (R31). -/
  fault   : Option Fault
  deriving DecidableEq, Repr

/-- The state of the model: the core's ten components, and four fields of the model's own, outside the core's
aggregate as R32 and R36 ask. -/
structure State extends Arch where
  /-- The implementation parameters (R9); no step writes them. DESIGN CHOICE: notes/assumptions/2.md. -/
  cfg        : Config.Params
  /-- How many random bytes were drawn: it selects the next free value (R16, R146). DESIGN CHOICE: notes/assumptions/7.md. -/
  draws      : Nat
  /-- What was emitted on the reporting channel, oldest first (R200, D24). DESIGN CHOICE: notes/assumptions/8.md. -/
  channel    : List Condition
  /-- The last opcode fetched, for the diagnostic snapshot only (R32, R218). DESIGN CHOICE: notes/assumptions/9.md. -/
  lastOpcode : Option Word
  deriving DecidableEq, Repr

/-- The machine right after reset (R37, R230). `v`, `i` and `mem` are OPEN in the spec: see `initV`, `initI`,
`unlistedByte`. -/
def State.reset : State where
  v := Vector.replicate 16 initV
  i := initI
  pc := 0x200
  sp := 0
  stack := Vector.replicate 16 0
  gfx := Framebuffer.clear
  mem := []
  running := true
  cycle := 0
  fault := none
  cfg := defaultParams
  draws := 0
  channel := []
  lastOpcode := none

end Sys2Proof.Machine
end

