-- ==== Sys2Proof/Machine/Ops.lean ====
section
/-! DEFINITION. The named operations over memory and registers, the reporting channel, and taking a fatal fault. Every
meaning reads and writes State through these. -/

namespace Sys2Proof.Machine

/-- What a step or a meaning answers. -/
abbrev Result := Host.Outcome State Fault Refusal

/-! ### Memory (spec 20_memory.md) -/

/-- The byte at an address; a byte never written reads as `unlistedByte` (R28). -/
def Memory.read : Memory → Nat → Byte
  | [], _ => unlistedByte
  | (k, b) :: m, a => if a = k then b else Memory.read m a

/-- A cell in front of a memory, unless it holds what an unlisted address reads as. -/
def Memory.consCell (a : Nat) (b : Byte) (m : Memory) : Memory :=
  if b = unlistedByte then m else (a, b) :: m

/-- One byte written, the canonical form kept. -/
def Memory.write : Memory → Nat → Byte → Memory
  | [], a, b => Memory.consCell a b []
  | (k, c) :: m, a, b =>
    if a < k then Memory.consCell a b ((k, c) :: m)
    else if a = k then Memory.consCell a b m
    else (k, c) :: Memory.write m a b

/-- Consecutive bytes written from an address on, in order (R55). -/
def Memory.writeBytes : Memory → Nat → List Byte → Memory
  | m, _, [] => m
  | m, a, b :: bs => Memory.writeBytes (Memory.write m a b) (a + 1) bs

/-! ### Framebuffer (spec 10_state.md R27) -/

/-- The pixel at a row and column of a grid. -/
def Framebuffer.at (g : Framebuffer) (r : Fin 32) (c : Fin 64) : Bool := g[r][c]

/-- One pixel of a grid replaced. -/
def Framebuffer.put (g : Framebuffer) (r : Fin 32) (c : Fin 64) (bit : Bool) : Framebuffer :=
  g.set r (g[r].set c bit)

namespace State

/-! ### One reader and one writer per component -/

/-- `V[x]` (R13, R21). -/
def getV (s : State) (x : RegIx) : Byte := s.v[x]

/-- `V[x] <- b` (R13, R21). -/
def setV (s : State) (x : RegIx) (b : Byte) : State := { s with v := s.v.set x b }

/-- `I <- a` (R23). -/
def setI (s : State) (a : Addr) : State := { s with i := a }

/-- `pc <- a` (R24). -/
def setPc (s : State) (a : Word) : State := { s with pc := a }

/-- `sp <- k` (R25). -/
def setSp (s : State) (k : Fin 17) : State := { s with sp := k }

/-- `stack[k]` (R26). -/
def stackAt (s : State) (k : Fin 16) : Word := s.stack[k]

/-- `stack[k] <- w` (R26). -/
def setStackAt (s : State) (k : Fin 16) (w : Word) : State := { s with stack := s.stack.set k w }

/-- `gfx[r][c]` (R27). -/
def pixel (s : State) (r : Fin 32) (c : Fin 64) : Bool := s.gfx.at r c

/-- The whole framebuffer replaced (R27). -/
def setGfx (s : State) (g : Framebuffer) : State := { s with gfx := g }

/-- The whole memory replaced (R28). -/
def setMem (s : State) (m : Memory) : State := { s with mem := m }

/-- `running <- b` (R29). -/
def setRunning (s : State) (b : Bool) : State := { s with running := b }

/-- `cycle <- n` (R30). -/
def setCycle (s : State) (n : Nat) : State := { s with cycle := n }

/-- `fault <- f` (R31). -/
def setFault (s : State) (f : Option Fault) : State := { s with fault := f }

/-- The count of random bytes drawn. -/
def setDraws (s : State) (n : Nat) : State := { s with draws := n }

/-- The opcode the diagnostic snapshot shows (R32). -/
def setLastOpcode (s : State) (w : Option Word) : State := { s with lastOpcode := w }

/-- A condition emitted on the reporting channel (R200). -/
def emit (s : State) (c : Condition) : State := { s with channel := s.channel ++ [c] }

/-! ### Memory as the core reads it -/

/-- `MEM_SIZE` of this machine (R9). -/
def memSize (s : State) : Nat := memSizeBytes s.cfg.memSize

/-- `MemRead(a, 1)` (R14, R52). -/
def memRead (s : State) (a : Nat) : Except Fault Byte :=
  if a < s.memSize then .ok (s.mem.read a) else .error (.memoryOutOfRange a)

/-! ### Control flow (spec 40_control_flow.md) -/

/-- The instruction's own address: a meaning sees `pc` already advanced by 2 (R17, R24). -/
def ownAddress (s : State) : Word := s.pc - 2

/-- A taken skip (R102). -/
def skip (s : State) : State := s.setPc (s.pc + 2)

/-- A skip taken on a condition (R102). -/
def skipIf (s : State) (p : Bool) : State := if p then s.skip else s

/-- Push: write at `sp`, then increment; nothing when all 16 entries are in use (R26, R105). -/
def push (s : State) (w : Word) : Option State :=
  if h : s.sp.val < 16 then some ((s.setStackAt ⟨s.sp.val, h⟩ w).setSp ⟨s.sp.val + 1, by omega⟩)
  else none

/-- Pop: decrement, then read; the entry is not cleared; nothing when no entry is in use (R26, R103). -/
def pop (s : State) : Option (Word × State) :=
  if h : s.sp.val = 0 then none
  else some (s.stackAt ⟨s.sp.val - 1, by omega⟩, s.setSp ⟨s.sp.val - 1, by omega⟩)

/-! ### Reports and fatal faults (spec 60_exceptions.md)

The core has no trap: no vector, no saved state, no mode, and no return (R200, R209). Taking a fatal fault is the one
operation below; only reset undoes it (R204). -/

/-- The fault recorded and emitted, with no other change (R204). -/
def latchFault (s : State) (f : Fault) : State := (s.setFault (some f)).emit (.fault f)

/-- A handler takes a fatal fault: nothing it did is committed, `pc` holds the instruction's own address again
(R15, R204, R205). -/
def raise (s : State) (f : Fault) : Result := .next ((s.setPc s.ownAddress).latchFault f)

/-- A stub's report: emitted, and nothing else (R15, R201). -/
def report (s : State) (c : Condition) : Result := .next (s.emit c)

/-! ### Around the handler (R100) -/

/-- `pc` advanced past the opcode fetched, before the handler runs (R100). -/
def fetched (s : State) (op : Word) : State := (s.setPc (s.pc + 2)).setLastOpcode (some op)

/-- The end of a step: `cycle` counts it, unless a fatal fault ended it (R30, R100). -/
def retire (s : State) : State :=
  match s.fault with
  | none => s.setCycle (s.cycle + 1)
  | some _ => s

/-- A step asked of a core that holds a fatal fault: it does nothing and reports nothing (R204). notes/assumptions/1.md. -/
def haltedStep (s : State) : Result := .next s

/-- A fetch that leaves memory: the fault is taken before `pc` is advanced (R100, R205). -/
def fetchFault (s : State) (f : Fault) : Result := .next (s.latchFault f)

/-- The two bytes of a word stored at `pc`, where the next fetch reads them (R51, R55). -/
def storeAtPc (s : State) (w : Word) : State :=
  s.setMem (s.mem.writeBytes s.pc.toNat [highByte w, lowByte w])

end State

/-- The end of a step on what the handler answered (R100). -/
def retired : Result → Result
  | .next t => .next t.retire
  | .fault f => .fault f
  | .refused r => .refused r

end Sys2Proof.Machine
end

