-- ==== Sys2Proof/Machine/Operands.lean ====
section
/-! DEFINITION. How the handlers form their operands (spec 30_encoding.md R73): the opcode fetched, the 12-bit address,
the exact sums and differences of bytes, the index register's new value, and the rows and coordinates of a sprite. -/

namespace Sys2Proof.Machine

/-- The 12-bit address as a value of `pc`, zero-extended (R12, R73). -/
def targetOf (nnn : Addr) : Word := nnn.setWidth 16

/-- A register's byte as a value added to `pc`, zero-extended (R12, R110). -/
def offsetOf (b : Byte) : Word := b.setWidth 16

/-- The exact sum of two bytes, 0 to 510 (R126). -/
def byteSum (a b : Byte) : Nat := a.toNat + b.toNat

/-- The exact difference of two bytes, -255 to 255 (R127, R129). -/
def byteDiff (a b : Byte) : Int := (a.toNat : Int) - (b.toNat : Int)

/-- A sum stored modulo 256 (R131). -/
def wrapSum (n : Nat) : Byte := BitVec.ofNat 8 (n % 256)

/-- A difference stored modulo 256, the remainder never negative (R12, R131). -/
def wrapDiff (d : Int) : Byte := BitVec.ofNat 8 (d % 256).toNat

/-- The value of FX1E: `(V[X] + I) mod INDEX_ADD_MOD` (R142). -/
def indexSum (modulus : Nat) (b : Byte) (i : Addr) : Addr := BitVec.ofNat 12 ((b.toNat + i.toNat) % modulus)

/-- The value of FX29: the address of the glyph, the operand not masked to a nibble (R57, R144, D28). -/
def glyphAddress (b : Byte) : Addr := BitVec.ofNat 12 (Config.fontBase + b.toNat * Config.glyphBytes)

/-- The row of pixels that sprite row `h` lands on (R160). -/
def spriteRow (y : Byte) (h : Nat) : Fin 32 := ⟨(y.toNat + h) % 32, Nat.mod_lt _ (by decide)⟩

/-- The column of pixels that sprite column `w` lands on (R160). -/
def spriteCol (x : Byte) (w : Nat) : Fin 64 := ⟨(x.toNat + w) % 64, Nat.mod_lt _ (by decide)⟩

/-- Bit `7 - w` of a sprite byte, the pixel at column offset `w` (R161). -/
def spriteBit (row : Byte) (w : Nat) : Bool := row.getLsbD (7 - w)

namespace State

/-- `MemRead(pc, 2)`: the opcode, or the fault of the first byte that is out of range, `pc` before `pc + 1`
(R14, R51, R100, R207). -/
def fetchWord (s : State) : Except Fault Word :=
  match s.memRead s.pc.toNat with
  | .error f => .error f
  | .ok hi =>
    match s.memRead (s.pc.toNat + 1) with
    | .error f => .error f
    | .ok lo => .ok (bigEndianWord hi lo)

/-- `n` sprite bytes from address `a` on, in order, or the fault of the first one out of range (R54, R162). -/
def readRows (s : State) : Nat → Nat → Except Fault (List Byte)
  | _, 0 => .ok []
  | a, n + 1 =>
    match s.memRead a with
    | .error f => .error f
    | .ok b =>
      match s.readRows (a + 1) n with
      | .error f => .error f
      | .ok bs => .ok (b :: bs)

end State

end Sys2Proof.Machine
end

