-- ==== Sys2Proof/Machine/Flags.lean ====
section
/-! DEFINITION. The flag computations (spec 41_alu.md R126 to R130) and the order of writes: the result to VX, then the
flag to VF, last (10_state.md R22, R34; 41_alu.md R132). -/

namespace Sys2Proof.Machine

/-- A flag as VF holds it, 0 or 1. -/
def flagByte (f : Bool) : Byte := if f then 1 else 0

/-- The carry of 8XY4: the exact sum is above `CARRY_THRESHOLD` (R126). -/
def carryFlag (threshold sum : Nat) : Bool := decide (threshold < sum)

/-- The flag of 8XY5 and 8XY7: the exact difference is strictly positive (R127, R129). -/
def positiveFlag (d : Int) : Bool := decide (0 < d)

/-- The bit 8XY6 shifts out, bit 0 before the shift (R128). -/
def shiftedOutLow (b : Byte) : Bool := b.getLsbD 0

/-- The bit 8XYE shifts out, bit 7 before the shift (R130). -/
def shiftedOutHigh (b : Byte) : Bool := b.getLsbD 7

namespace State

/-- `V[F] <- f` (R13, R22). -/
def setFlag (s : State) (f : Bool) : State := s.setV vf (flagByte f)

/-- The result written to VX, then the flag to VF; with X = 0xF the flag stays (R22, R132). -/
def setResultAndFlag (s : State) (x : RegIx) (result : Byte) (f : Bool) : State := (s.setV x result).setFlag f

end State

end Sys2Proof.Machine
end

