-- ==== Sys2Proof/Machine/Alu.lean ====
section
/-! DEFINITION. The register and arithmetic instructions (spec 41_alu.md). Operands are read from the state before any
write (R132). -/

namespace Sys2Proof.Machine

/-- 6XNN LD VX, NN (R120). -/
def execLdImm (x : RegIx) (nn : Byte) (s : State) : Result := .next (s.setV x nn)

/-- 7XNN ADD VX, NN: modulo 256, no carry recorded (R121). -/
def execAddImm (x : RegIx) (nn : Byte) (s : State) : Result :=
  .next (s.setV x (wrapSum (byteSum (s.getV x) nn)))

/-- 8XY0 LD VX, VY (R122). -/
def execLdReg (x y : RegIx) (s : State) : Result := .next (s.setV x (s.getV y))

/-- 8XY1 OR VX, VY; VF is not reset (R123). -/
def execOrReg (x y : RegIx) (s : State) : Result := .next (s.setV x (s.getV x ||| s.getV y))

/-- 8XY2 AND VX, VY (R124). -/
def execAndReg (x y : RegIx) (s : State) : Result := .next (s.setV x (s.getV x &&& s.getV y))

/-- 8XY3 XOR VX, VY (R125). -/
def execXorReg (x y : RegIx) (s : State) : Result := .next (s.setV x (s.getV x ^^^ s.getV y))

/-- 8XY4 ADD VX, VY: the sum modulo 256, VF the carry (R126). -/
def execAddReg (x y : RegIx) (s : State) : Result :=
  let sum := byteSum (s.getV x) (s.getV y)
  .next (s.setResultAndFlag x (wrapSum sum) (carryFlag (carryThreshold s.cfg.carry) sum))

/-- 8XY5 SUB VX, VY: the difference modulo 256, VF set iff it is strictly positive (R127). -/
def execSubReg (x y : RegIx) (s : State) : Result :=
  let d := byteDiff (s.getV x) (s.getV y)
  .next (s.setResultAndFlag x (wrapDiff d) (positiveFlag d))

/-- 8XY6 SHR VX: one bit to the right, VF the bit shifted out (R128). -/
def execShr (x : RegIx) (_ignoredY : Nibble) (s : State) : Result :=
  .next (s.setResultAndFlag x (s.getV x >>> 1) (shiftedOutLow (s.getV x)))

/-- 8XY7 SUBN VX, VY: VY minus VX, with the flag and wrap of 8XY5 (R129). -/
def execSubnReg (x y : RegIx) (s : State) : Result :=
  let d := byteDiff (s.getV y) (s.getV x)
  .next (s.setResultAndFlag x (wrapDiff d) (positiveFlag d))

/-- 8XYE SHL VX: one bit to the left, masked to 8 bits, VF the bit shifted out; under `SHL_MODE = refuse` no meaning
when bit 7 is set (R130, R206). -/
def execShl (x : RegIx) (_ignoredY : Nibble) (s : State) : Result :=
  if s.cfg.shl = .refuse ∧ 0x80 ≤ (s.getV x).toNat then .refused .shlRefused
  else .next (s.setResultAndFlag x (s.getV x <<< 1) (shiftedOutHigh (s.getV x)))

end Sys2Proof.Machine
end

