-- ==== Sys2Proof/Machine/Control.lean ====
section
/-! DEFINITION. The control-flow instructions (spec 40_control_flow.md). Each meaning sees `pc` already advanced by 2
(00_scope.md R17). -/

namespace Sys2Proof.Machine

/-- 00E0 CLS: every pixel 0 (R101). -/
def execCls (s : State) : Result := .next (s.setGfx Framebuffer.clear)

/-- 00EE RET: pop into `pc`, or StackUnderflow with the RET's own address (R103). -/
def execRet (s : State) : Result :=
  match s.pop with
  | none => s.raise (.stackUnderflow s.ownAddress)
  | some (a, t) => .next (t.setPc a)

/-- 1NNN JP: a jump to its own address clears `running`; then `pc <- NNN` in any case (R104). -/
def execJp (nnn : Addr) (s : State) : Result :=
  let t := if targetOf nnn = s.ownAddress then s.setRunning false else s
  .next (t.setPc (targetOf nnn))

/-- 2NNN CALL: push the advanced `pc`, then `pc <- NNN`, or StackOverflow with the CALL's own address (R105). -/
def execCall (nnn : Addr) (s : State) : Result :=
  match s.push s.pc with
  | none => s.raise (.stackOverflow s.ownAddress)
  | some t => .next (t.setPc (targetOf nnn))

/-- 3XNN SE VX, NN (R106). -/
def execSeImm (x : RegIx) (nn : Byte) (s : State) : Result := .next (s.skipIf (s.getV x == nn))

/-- 4XNN SNE VX, NN (R107). -/
def execSneImm (x : RegIx) (nn : Byte) (s : State) : Result := .next (s.skipIf (s.getV x != nn))

/-- 5XYn SE VX, VY; the low nibble is not read (R80, R108). -/
def execSeReg (x y : RegIx) (_ignored : Nibble) (s : State) : Result := .next (s.skipIf (s.getV x == s.getV y))

/-- 9XYn SNE VX, VY; the low nibble is not read (R80, R109). -/
def execSneReg (x y : RegIx) (_ignored : Nibble) (s : State) : Result := .next (s.skipIf (s.getV x != s.getV y))

/-- BNNN JP V0, NNN: `pc <- V[0] + NNN`, not masked and not compared with the own address (R110). -/
def execJpV0 (nnn : Addr) (s : State) : Result := .next (s.setPc (offsetOf (s.getV 0) + targetOf nnn))

end Sys2Proof.Machine
end

