-- ==== Sys2Proof/Machine/Draw.lean ====
section
/-! DEFINITION. The sprite draw (spec 43_draw.md): a draw overwrites its rectangle with the sprite's bits and records a
collision where a 1 bit meets a lit pixel. It is not an XOR draw (R163). -/

namespace Sys2Proof.Machine

/-- A draw in progress: the pixels so far and the collision recorded so far (R162). -/
structure Canvas where
  gfx       : Framebuffer
  collision : Bool
  deriving DecidableEq, Repr

/-- One sprite bit lands on one pixel: a 1 on a lit pixel is a collision; the pixel takes the bit (R162, R163). -/
def Canvas.plot (d : Canvas) (r : Fin 32) (c : Fin 64) (bit : Bool) : Canvas :=
  { gfx := d.gfx.put r c bit, collision := d.collision || (bit && d.gfx.at r c) }

/-- Sprite row `h`, columns 0 to 7 in order (R162). -/
def Canvas.drawRow (d : Canvas) (x y : Byte) (h : Nat) (row : Byte) : Canvas :=
  [0, 1, 2, 3, 4, 5, 6, 7].foldl (fun d w => d.plot (spriteRow y h) (spriteCol x w) (spriteBit row w)) d

/-- The sprite's rows from row `h` on, in order (R162). -/
def Canvas.drawRows (d : Canvas) (x y : Byte) : Nat → List Byte → Canvas
  | _, [] => d
  | h, row :: rows => Canvas.drawRows (d.drawRow x y h row) x y (h + 1) rows

/-- A whole draw on the framebuffer of a state, with no collision recorded before it (R162). -/
def State.drawSprite (s : State) (x y : Byte) (rows : List Byte) : Canvas :=
  Canvas.drawRows ⟨s.gfx, false⟩ x y 0 rows

/-- DXYN DRW VX, VY, N: coordinates and every sprite row are read first, a row out of range is MemoryOutOfRange and
nothing is drawn; then the pixels, then VF, always and last (R162, R164). -/
def execDrw (x y : RegIx) (n : Fin 16) (s : State) : Result :=
  match s.readRows s.i.toNat n.val with
  | .error f => s.raise f
  | .ok rows =>
    let d := s.drawSprite (s.getV x) (s.getV y) rows
    .next ((s.setGfx d.gfx).setFlag d.collision)

end Sys2Proof.Machine
end

