-- ==== Sys2Proof/Machine/Index.lean ====
section
/-! DEFINITION. The index register and random instructions (spec 42_memory_index.md). None touches memory and none
writes VF as a flag. -/

namespace Sys2Proof.Machine

/-- ANNN LD I, NNN (R140). -/
def execLdI (nnn : Addr) (s : State) : Result := .next (s.setI nnn)

/-- FX1E ADD I, VX: modulo `INDEX_ADD_MOD` (R142). -/
def execAddI (x : RegIx) (s : State) : Result :=
  .next (s.setI (indexSum (indexAddMod s.cfg.indexMod) (s.getV x) s.i))

/-- FX29 LD F, VX: five times VX (R144). -/
def execLdF (x : RegIx) (s : State) : Result := .next (s.setI (glyphAddress (s.getV x)))

/-- CXNN on a given random byte `r`: `V[X] <- r & NN`, and one byte more is drawn (R146). -/
def rndWith (r : Byte) (x : RegIx) (nn : Byte) (s : State) : State :=
  (s.setV x (r &&& nn)).setDraws (s.draws + 1)

/-- CXNN RND VX, NN: the random byte is the free value of this draw (R16, R146, D22). -/
def execRnd (x : RegIx) (nn : Byte) (s : State) : Result := .next (rndWith (Config.randByte s.draws) x nn s)

end Sys2Proof.Machine
end

