-- ==== Sys2Proof/Machine/Stubs.lean ====
section
/-! DEFINITION. The two stubs (spec 44_stubs.md): a word that selects no implemented instruction emits one report with
its opcode and changes nothing else (60_exceptions.md R201). The step around it advances `pc` and `cycle` as always. -/

namespace Sys2Proof.Machine

/-- The UnknownOpcode stub on the opcode of a term (R180). -/
def unknownOpcode (i : Instr) (s : State) : Result := s.report (.unknownOpcode (encode i))

/-- The NotImplemented stub on the opcode of a term (R181). -/
def notImplemented (i : Instr) (s : State) : Result := s.report (.notImplemented (encode i))

/-- 0NNN other than 00E0 and 00EE (R76, R180). -/
def execUnknown0NNN (nnn : Addr) (s : State) : Result := unknownOpcode (.unknown0NNN nnn) s

/-- 8XY8 (R77, R180). -/
def execUnknown8XY8 (x y : Nibble) (s : State) : Result := unknownOpcode (.unknown8XY8 x y) s

/-- 8XY9 (R77, R180). -/
def execUnknown8XY9 (x y : Nibble) (s : State) : Result := unknownOpcode (.unknown8XY9 x y) s

/-- 8XYA (R77, R180). -/
def execUnknown8XYA (x y : Nibble) (s : State) : Result := unknownOpcode (.unknown8XYA x y) s

/-- 8XYB (R77, R180). -/
def execUnknown8XYB (x y : Nibble) (s : State) : Result := unknownOpcode (.unknown8XYB x y) s

/-- 8XYC (R77, R180). -/
def execUnknown8XYC (x y : Nibble) (s : State) : Result := unknownOpcode (.unknown8XYC x y) s

/-- 8XYD (R77, R180). -/
def execUnknown8XYD (x y : Nibble) (s : State) : Result := unknownOpcode (.unknown8XYD x y) s

/-- 8XYF (R77, R180). -/
def execUnknown8XYF (x y : Nibble) (s : State) : Result := unknownOpcode (.unknown8XYF x y) s

/-- FXnn with an unlisted low byte (R79, R180). -/
def execUnknownFXnn (x : Nibble) (nn : Byte) (s : State) : Result := unknownOpcode (.unknownFXnn x nn) s

/-- EX9E; no skip (R78, R181, R182). -/
def execSkpStub (x : Nibble) (s : State) : Result := notImplemented (.skpStub x) s

/-- EXA1; no skip (R78, R181, R182). -/
def execSknpStub (x : Nibble) (s : State) : Result := notImplemented (.sknpStub x) s

/-- every other Ennn (R78, R181, R182). -/
def execNotHandledE (nnn : Addr) (s : State) : Result := notImplemented (.notHandledE nnn) s

/-- FX07; no timer exists (R181, R182). -/
def execLdVxDtStub (x : Nibble) (s : State) : Result := notImplemented (.ldVxDtStub x) s

/-- FX0A; it does not wait (R181, R182). -/
def execLdVxKStub (x : Nibble) (s : State) : Result := notImplemented (.ldVxKStub x) s

/-- FX15; no timer exists (R181, R182). -/
def execLdDtVxStub (x : Nibble) (s : State) : Result := notImplemented (.ldDtVxStub x) s

/-- FX18; no timer exists (R181, R182). -/
def execLdStVxStub (x : Nibble) (s : State) : Result := notImplemented (.ldStVxStub x) s

/-- FX33; memory unchanged (R181, R182). -/
def execLdBVxStub (x : Nibble) (s : State) : Result := notImplemented (.ldBVxStub x) s

/-- FX55; memory unchanged (R181, R182). -/
def execLdMemVxStub (x : Nibble) (s : State) : Result := notImplemented (.ldMemVxStub x) s

/-- FX65; registers unchanged (R181, R182). -/
def execLdVxMemStub (x : Nibble) (s : State) : Result := notImplemented (.ldVxMemStub x) s

end Sys2Proof.Machine
end

