-- ==== Sys2Proof/Machine/Dispatch.lean ====
section
/-! DEFINITION. One arm per instruction (spec 30_encoding.md R74): the meaning each one selects. -/

namespace Sys2Proof.Machine

def exec (i : Instr) (s : State) : Host.Outcome State Fault Refusal :=
  match i with
  | .cls => Sys2Proof.Machine.execCls s
  | .ret => Sys2Proof.Machine.execRet s
  | .unknown0NNN nnn => Sys2Proof.Machine.execUnknown0NNN nnn s
  | .jp nnn => Sys2Proof.Machine.execJp nnn s
  | .call nnn => Sys2Proof.Machine.execCall nnn s
  | .seImm x nn => Sys2Proof.Machine.execSeImm x nn s
  | .sneImm x nn => Sys2Proof.Machine.execSneImm x nn s
  | .seReg x y n => Sys2Proof.Machine.execSeReg x y n s
  | .ldImm x nn => Sys2Proof.Machine.execLdImm x nn s
  | .addImm x nn => Sys2Proof.Machine.execAddImm x nn s
  | .ldReg x y => Sys2Proof.Machine.execLdReg x y s
  | .orReg x y => Sys2Proof.Machine.execOrReg x y s
  | .andReg x y => Sys2Proof.Machine.execAndReg x y s
  | .xorReg x y => Sys2Proof.Machine.execXorReg x y s
  | .addReg x y => Sys2Proof.Machine.execAddReg x y s
  | .subReg x y => Sys2Proof.Machine.execSubReg x y s
  | .shr x y => Sys2Proof.Machine.execShr x y s
  | .subnReg x y => Sys2Proof.Machine.execSubnReg x y s
  | .shl x y => Sys2Proof.Machine.execShl x y s
  | .unknown8XY8 x y => Sys2Proof.Machine.execUnknown8XY8 x y s
  | .unknown8XY9 x y => Sys2Proof.Machine.execUnknown8XY9 x y s
  | .unknown8XYA x y => Sys2Proof.Machine.execUnknown8XYA x y s
  | .unknown8XYB x y => Sys2Proof.Machine.execUnknown8XYB x y s
  | .unknown8XYC x y => Sys2Proof.Machine.execUnknown8XYC x y s
  | .unknown8XYD x y => Sys2Proof.Machine.execUnknown8XYD x y s
  | .unknown8XYF x y => Sys2Proof.Machine.execUnknown8XYF x y s
  | .sneReg x y n => Sys2Proof.Machine.execSneReg x y n s
  | .ldI nnn => Sys2Proof.Machine.execLdI nnn s
  | .jpV0 nnn => Sys2Proof.Machine.execJpV0 nnn s
  | .rnd x nn => Sys2Proof.Machine.execRnd x nn s
  | .drw x y n => Sys2Proof.Machine.execDrw x y n s
  | .skpStub x => Sys2Proof.Machine.execSkpStub x s
  | .sknpStub x => Sys2Proof.Machine.execSknpStub x s
  | .notHandledE nnn => Sys2Proof.Machine.execNotHandledE nnn s
  | .addI x => Sys2Proof.Machine.execAddI x s
  | .ldF x => Sys2Proof.Machine.execLdF x s
  | .ldVxDtStub x => Sys2Proof.Machine.execLdVxDtStub x s
  | .ldVxKStub x => Sys2Proof.Machine.execLdVxKStub x s
  | .ldDtVxStub x => Sys2Proof.Machine.execLdDtVxStub x s
  | .ldStVxStub x => Sys2Proof.Machine.execLdStVxStub x s
  | .ldBVxStub x => Sys2Proof.Machine.execLdBVxStub x s
  | .ldMemVxStub x => Sys2Proof.Machine.execLdMemVxStub x s
  | .ldVxMemStub x => Sys2Proof.Machine.execLdVxMemStub x s
  | .unknownFXnn x nn => Sys2Proof.Machine.execUnknownFXnn x nn s

end Sys2Proof.Machine
end

