-- ==== Sys2Proof/Machine/Step.lean ====
section
/-! DEFINITION. One step (spec 40_control_flow.md R100): fetch, advance `pc` by 2, dispatch, count the cycle. -/

namespace Sys2Proof.Machine

/-- The `step()` port (R100, R204, R216): its random byte is the free value that `draws` selects. -/
def step (s : State) : Host.Outcome State Fault Refusal :=
  match s.fault with
  | some _ => s.haltedStep
  | none =>
    match s.fetchWord with
    | .error f => s.fetchFault f
    | .ok op => retired (exec (decodeWord op) (s.fetched op))

/-- The state with a one-word instruction stored where its next step fetches (bits above `nbits` are 0): the load that
brings a program to the core (R232, notes/assumptions/13.md). -/
def State.withFetchWord (s : State) (nbits w : Nat) : State := s.storeAtPc (BitVec.ofNat 16 (w % 2 ^ nbits))

end Sys2Proof.Machine
end

