-- ==== Sys2Proof/Machine/Ports.lean ====
section
/-! DEFINITION. The host's ports other than `step` (spec 60_exceptions.md R215 to R220; 20_memory.md R55; 43_draw.md
R166; 70_reset_and_hazards.md R230 to R233), the codes of the conditions, and a sequence of port calls. -/

namespace Sys2Proof.Machine

/-- The code of a fatal fault (R202, D26). -/
def Fault.code : Fault → Nat
  | .stackOverflow _ => 3
  | .stackUnderflow _ => 4
  | .memoryOutOfRange _ => 5
  | .romLoadOutOfRange _ _ => 6

/-- The code of a condition (R201, R202, D26). -/
def Condition.code : Condition → Nat
  | .unknownOpcode _ => 1
  | .notImplemented _ => 2
  | .fault f => f.code

/-- The `load(bytes, offset)` port: all the bytes or, when they do not fit, none and RomLoadOutOfRange; nothing at all
while a fault is recorded (R55, R204). -/
def State.load (s : State) (bytes : List Byte) (offset : Nat) : State :=
  match s.fault with
  | some _ => s
  | none =>
    if s.memSize < offset + bytes.length then s.latchFault (.romLoadOutOfRange offset bytes.length)
    else s.setMem (s.mem.writeBytes offset bytes)

/-- The host's reset (R230): every component at its reset value, with any `INIT_V`, `INIT_I` and `INIT_MEM` (the bytes
from address 0 on, as far as memory goes). Parameters, drawn bytes and the channel are the host's and stay:
notes/assumptions/14.md. -/
def State.hostReset (s : State) (initV : Vector Byte 16) (initI : Addr) (initMem : List Byte) : State :=
  { State.reset with
    v := initV
    i := initI
    mem := Memory.writeBytes [] 0 (initMem.take s.memSize)
    cfg := s.cfg
    draws := s.draws
    channel := s.channel }

/-- Boot: the font image at 0, then the program image at 0x200 (R232). -/
def State.boot (s : State) (font program : List Byte) : State :=
  (s.load font Config.fontBase).load program Config.programBase

/-- What the diagnostic snapshot shows (R218). -/
structure Diagnostics where
  cycle         : Nat
  currentOpcode : Option Word
  pc            : Word
  v             : Vector Byte 16
  sp            : Fin 17
  stack         : Vector Word 16
  i             : Addr
  deriving DecidableEq, Repr

/-- The framebuffer snapshot port (R166). -/
def State.framebufferSnapshot (s : State) : Framebuffer := s.gfx

/-- The running flag port (R217). -/
def State.runningFlag (s : State) : Bool := s.running

/-- The diagnostic snapshot port (R218). -/
def State.diagnosticSnapshot (s : State) : Diagnostics :=
  { cycle := s.cycle, currentOpcode := s.lastOpcode, pc := s.pc, v := s.v, sp := s.sp, stack := s.stack, i := s.i }

/-- The calls of the host's ports (R215). -/
inductive PortCall where
  /-- `step()` (R216). -/
  | step
  /-- `load(bytes, offset)` (R55). -/
  | load (bytes : List Byte) (offset : Nat)
  /-- Reset (R230). -/
  | reset (initV : Vector Byte 16) (initI : Addr) (initMem : List Byte)
  /-- The framebuffer snapshot (R166). -/
  | readFramebuffer
  /-- The running flag (R217). -/
  | readRunning
  /-- The diagnostic snapshot (R218). -/
  | readDiagnostics
  deriving DecidableEq, Repr

/-- One port call, atomic (R215, R59); a read changes nothing. -/
def portCall (c : PortCall) (s : State) : Result :=
  match c with
  | .step => step s
  | .load bytes offset => .next (s.load bytes offset)
  | .reset initV initI initMem => .next (s.hostReset initV initI initMem)
  | .readFramebuffer => .next s
  | .readRunning => .next s
  | .readDiagnostics => .next s

/-- Port calls one after another, totally ordered (R59, R215), of a host that holds the refusal mark `mark` or none: once
the mark is set no call has an effect until a reset clears it (R206, R230). A run that ends with the mark set answers it. -/
def portRun : Option Refusal → List PortCall → State → Result
  | none, [], s => .next s
  | some r, [], _ => .refused r
  | none, c :: cs, s =>
    match portCall c s with
    | .next t => portRun none cs t
    | .fault f => .fault f
    | .refused r => portRun (some r) cs s
  | some _, .reset initV initI initMem :: cs, s => portRun none cs (s.hostReset initV initI initMem)
  | some r, .step :: cs, s => portRun (some r) cs s
  | some r, .load _ _ :: cs, s => portRun (some r) cs s
  | some r, .readFramebuffer :: cs, s => portRun (some r) cs s
  | some r, .readRunning :: cs, s => portRun (some r) cs s
  | some r, .readDiagnostics :: cs, s => portRun (some r) cs s

/-- Port calls one after another, from a state with no refusal mark. -/
def portCalls (cs : List PortCall) (s : State) : Result := portRun none cs s

end Sys2Proof.Machine
end

