-- ==== Sys2Proof/Safety.lean ====
section
/-! DEFINITION. The terms the claims use: what a fatal fault's cause is, the invariant every step and port call keeps
(spec 60_exceptions.md R219, 10_state.md R24 to R31), what an instruction leaves unchanged, which words reach which
stub (30_encoding.md R82), and the end of a run (R220). -/

namespace Sys2Proof.Machine

/-! ### The invariant -/

/-- What holds of a state that has recorded the fault: its cause, and for a handler's stack fault that `pc` holds the
instruction's own address (R202, R205). -/
def Fault.causedIn : Fault → State → Prop
  | .stackOverflow a, s => s.sp = 16 ∧ a = s.pc
  | .stackUnderflow a, s => s.sp = 0 ∧ a = s.pc
  | .memoryOutOfRange a, s => s.memSize ≤ a
  | .romLoadOutOfRange offset length, s => s.memSize < offset + length

/-- What the core owes the host after every port call (R219), beyond what the types say: memory in canonical form and
inside the address space (R50), `pc` never above 0x10FE (R24), return addresses inside memory or just past it (R26,
R111), a recorded fault with its cause (R202) and with its report (R200). -/
structure State.Inv (s : State) : Prop where
  memory_canonical : s.mem.wf
  memory_in_range : ∀ p ∈ s.mem, p.1 < s.memSize
  pc_bounded : s.pc.toNat ≤ 0x10FE
  stack_bounded : ∀ k, (s.stackAt k).toNat ≤ s.memSize
  fault_caused : ∀ f, s.fault = some f → f.causedIn s
  fault_reported : ∀ f, s.fault = some f → Condition.fault f ∈ s.channel

/-! ### Frames -/

/-- The components of State other than the general registers. -/
inductive Component where
  | index | pc | sp | stack | pixels | memory | running | cycle | fault | cfg | draws | channel | lastOpcode
  deriving DecidableEq, Repr

/-- The component reads the same in both states; memory and pixels are read one byte and one pixel at a time. -/
def Component.sameIn : Component → State → State → Prop
  | .index, s, t => t.i = s.i
  | .pc, s, t => t.pc = s.pc
  | .sp, s, t => t.sp = s.sp
  | .stack, s, t => ∀ k, t.stackAt k = s.stackAt k
  | .pixels, s, t => ∀ r c, t.pixel r c = s.pixel r c
  | .memory, s, t => ∀ a, t.mem.read a = s.mem.read a
  | .running, s, t => t.running = s.running
  | .cycle, s, t => t.cycle = s.cycle
  | .fault, s, t => t.fault = s.fault
  | .cfg, s, t => t.cfg = s.cfg
  | .draws, s, t => t.draws = s.draws
  | .channel, s, t => t.channel = s.channel
  | .lastOpcode, s, t => t.lastOpcode = s.lastOpcode

/-- From `s` to `t` only the registers `vs` and the components `cs` may have changed. -/
def OnlyChanges (vs : List RegIx) (cs : List Component) (s t : State) : Prop :=
  (∀ r, r ∉ vs → t.getV r = s.getV r) ∧ ∀ c, c ∉ cs → c.sameIn s t

/-- The fatal fault `f` taken by a handler in `s`, giving `t` (R204, R205): recorded, emitted, `pc` back at the own
address, and nothing else changed. -/
def TakesFault (f : Fault) (s t : State) : Prop :=
  t.fault = some f ∧ t.pc = s.pc - 2 ∧ t.channel = s.channel ++ [.fault f] ∧ OnlyChanges [] [.fault, .pc, .channel] s t

/-- What a transformer of states does to an answer. -/
def mapNext (g : State → State) : Result → Result
  | .next t => .next (g t)
  | .fault f => .fault f
  | .refused r => .refused r

/-- The next step of `s` fetches `op`: no fault is recorded, both bytes are inside memory, and they are `op`, the byte at
`pc` first (R51, R100). -/
def Fetches (s : State) (op : Word) : Prop :=
  s.fault = none ∧ s.pc.toNat + 1 < s.memSize ∧
    op.toNat = (s.mem.read s.pc.toNat).toNat * 256 + (s.mem.read (s.pc.toNat + 1)).toNat

/-- The `n` sprite rows from `I` on lie inside memory; no row is read when `n` is 0 (R162, R164). -/
def RowsInMemory (s : State) (n : Nat) : Prop := n = 0 ∨ s.i.toNat + n ≤ s.memSize

/-- The byte at an address once `bytes` have been loaded at `offset`: a loaded one inside the range, else the one that was
there (R55). -/
def byteAfterLoad (s : State) (bytes : List Byte) (offset a : Nat) : Byte :=
  if offset ≤ a then bytes[a - offset]?.getD (s.mem.read a) else s.mem.read a

/-- Bit `7 - w` of the sprite byte at `I + h` (R161). -/
def spriteBitAt (s : State) (h w : Nat) : Bool := (s.mem.read (s.i.toNat + h)).getLsbD (7 - w)

/-- Pixel `(r, c)` is where bit `(h, w)` of a sprite drawn at column `x`, row `y` lands (R160). -/
def LandsOn (x y : Byte) (h w : Nat) (r : Fin 32) (c : Fin 64) : Prop :=
  r.val = (y.toNat + h) % 32 ∧ c.val = (x.toNat + w) % 64

/-! ### Words and stubs (R82) -/

/-- The low bytes of family 0xF that reach the NotImplemented stub (R79, R82). -/
def notImplementedFBytes : List Byte := [0x07, 0x0A, 0x15, 0x18, 0x33, 0x55, 0x65]

/-- The words of R82 that are unknown. -/
def UnknownWord (w : Word) : Prop :=
  (opF w = 0x0 ∧ w ≠ 0x00E0 ∧ w ≠ 0x00EE)
    ∨ (opF w = 0x8 ∧ opN w ∈ ([0x8, 0x9, 0xA, 0xB, 0xC, 0xD, 0xF] : List Nibble))
    ∨ (opF w = 0xF ∧ opNN w ∉ notImplementedFBytes ∧ opNN w ≠ 0x1E ∧ opNN w ≠ 0x29)

/-- The words of R82 that are recognised but unimplemented. -/
def NotImplementedWord (w : Word) : Prop :=
  opF w = 0xE ∨ (opF w = 0xF ∧ opNN w ∈ notImplementedFBytes)

/-! ### Which instructions write what -/

/-- An instruction that writes VF as a flag (R34). -/
def WritesFlag (i : Instr) : Prop :=
  (∃ x y, i = .addReg x y ∨ i = .subReg x y ∨ i = .subnReg x y) ∨ (∃ x y, i = .shr x y ∨ i = .shl x y) ∨
    ∃ x y n, i = .drw x y n

/-- An instruction whose destination register is `x` (R120 to R130, R146). -/
def HasDestination (i : Instr) (x : RegIx) : Prop :=
  (∃ nn, i = .ldImm x nn ∨ i = .addImm x nn ∨ i = .rnd x nn) ∨
    (∃ y, i = .ldReg x y ∨ i = .orReg x y ∨ i = .andReg x y ∨ i = .xorReg x y) ∨
    (∃ y, i = .addReg x y ∨ i = .subReg x y ∨ i = .subnReg x y) ∨ ∃ y, i = .shr x y ∨ i = .shl x y

/-- A jump, call, return or skip (R24). -/
def Redirects (i : Instr) : Prop :=
  i = .ret ∨ (∃ nnn, i = .jp nnn ∨ i = .call nnn ∨ i = .jpV0 nnn) ∨
    (∃ x nn, i = .seImm x nn ∨ i = .sneImm x nn) ∨ ∃ x y n, i = .seReg x y n ∨ i = .sneReg x y n

/-- An instruction that can take a fatal fault of its own (R207). -/
def CanFault (i : Instr) : Prop := i = .ret ∨ (∃ nnn, i = .call nnn) ∨ ∃ x y n, i = .drw x y n

/-! ### Runs -/

/-- A run has ended in this state (R220); a refusal ends it without one. -/
def State.ended (s : State) : Prop := s.running = false ∨ s.fault ≠ none

/-- No fatal fault is recorded: what a safe run keeps. -/
def State.safe (s : State) : Prop := s.fault = none

end Sys2Proof.Machine
end

