-- ==== Sys2Proof/Certificates/Slice0/Obligations.lean ====
section
/-! DEFINITION. The statements for the provers, from the numbered rules of spec/. -/

open Sys2Proof Sys2Proof.Machine

/-! ### Encoding (spec 30_encoding.md) -/

/-- Decode and encode agree: no bit of any instruction's encoding is dropped (R71 to R82). -/
def Obligations.EncodeThenDecodeIsIdentity : Prop :=
  ∀ i : Instr, i.wf = true → decodeWord (encode i) = i

/-- Every 16-bit word selects one well-formed instruction, and that instruction's word is the word itself (R74, R82). -/
def Obligations.DecodeThenEncodeIsIdentity : Prop :=
  ∀ w : Word, (decodeWord w).wf = true ∧ encode (decodeWord w) = w

/-- R86, derived by the spec from R74 to R82: the decoder's row is in the table and matches the word; another row that matches is a fallback row, and it has
fewer fixed bits. -/
def Obligations.DecodedRowHasMostFixedBits : Prop :=
  ∀ w : Word,
    rowOf (decodeWord w) ∈ opcodeTable ∧ w &&& (rowOf (decodeWord w)).mask = (rowOf (decodeWord w)).pattern ∧
      ∀ r ∈ opcodeTable, w &&& r.mask = r.pattern → r ≠ rowOf (decodeWord w) →
        r.mask = 0xF000 ∧ r.pattern ∈ ([0x0000, 0xE000, 0xF000] : List Word) ∧
          r.mask.toNat < (rowOf (decodeWord w)).mask.toNat

/-- Words written out from the encodings of R75 to R79 decode to what they stand for. -/
def Obligations.SampleWordsDecode : Prop :=
  decodeWord 0x00E0 = .cls ∧ decodeWord 0x00EE = .ret ∧ decodeWord 0x1ABC = .jp 0xABC ∧
  decodeWord 0x3242 = .seImm 2 0x42 ∧ decodeWord 0x9123 = .sneReg 1 2 3 ∧ decodeWord 0x8F14 = .addReg 15 1 ∧
  decodeWord 0x8127 = .subnReg 1 2 ∧ decodeWord 0xB20A = .jpV0 0x20A ∧ decodeWord 0xC30F = .rnd 3 0x0F ∧
  decodeWord 0xD125 = .drw 1 2 5 ∧ decodeWord 0xF31E = .addI 3 ∧ decodeWord 0xF529 = .ldF 5 ∧
  decodeWord 0x8AB8 = .unknown8XY8 0xA 0xB ∧ decodeWord 0xE19E = .skpStub 1 ∧ decodeWord 0xF155 = .ldMemVxStub 1

/-- R70: one length of two bytes, fetched big-endian; the decoder consumes exactly two and refuses only a missing one. -/
def Obligations.DecoderConsumesTwoBytes : Prop :=
  (∀ (hi lo : Byte) (rest : List Byte),
    decode (hi :: lo :: rest) = .ok (decodeWord (BitVec.ofNat 16 (hi.toNat * 256 + lo.toNat)), rest)) ∧
  (∀ bytes : List Byte, decode bytes = .error .truncated ↔ bytes.length < 2)

/-- R80, derived by the spec from R74: 5XYn and 9XYn are the register skips for every low nibble, and the nibble has no effect. -/
def Obligations.SkipsIgnoreTheLowNibble : Prop :=
  (∀ w : Word, opF w = 0x5 → decodeWord w = .seReg (regOf (opX w)) (regOf (opY w)) (opN w)) ∧
  (∀ w : Word, opF w = 0x9 → decodeWord w = .sneReg (regOf (opX w)) (regOf (opY w)) (opN w)) ∧
  (∀ x y n s, exec (.seReg x y n) s = exec (.seReg x y 0) s) ∧
  (∀ x y n s, exec (.sneReg x y n) s = exec (.sneReg x y 0) s)

/-! ### The step (spec 40_control_flow.md R100, 60_exceptions.md) -/

/-- A step runs the decoded instruction on the state whose `pc` is past it, and then counts the cycle unless a fatal
fault was taken (R100). That `lastOpcode` becomes the opcode, also where the handler then takes a fault, is the model's
own choice (notes/assumptions/9.md). -/
def Obligations.StepRunsTheDecodedInstruction : Prop :=
  ∀ (s : State) (op : Word), Fetches s op →
    step s =
      match exec (decodeWord op) { s with pc := s.pc + 2, lastOpcode := some op } with
      | .next t => .next (if t.fault = none then { t with cycle := t.cycle + 1 } else t)
      | .fault f => .fault f
      | .refused r => .refused r

/-- A read at or above `MEM_SIZE` is MemoryOutOfRange with that address (R52): any read, the fetch, `pc` before `pc + 1`
(R100, R207), and the first sprite row outside memory (R162, R204). -/
def Obligations.OutOfRangeReadIsMemoryFault : Prop :=
  (∀ (s : State) (a : Nat), s.memSize ≤ a → s.memRead a = .error (.memoryOutOfRange a)) ∧
  (∀ s : State, s.fault = none → s.memSize ≤ s.pc.toNat →
    ∃ t, step s = .next t ∧ t.fault = some (.memoryOutOfRange s.pc.toNat)) ∧
  (∀ s : State, s.fault = none → s.pc.toNat + 1 = s.memSize →
    ∃ t, step s = .next t ∧ t.fault = some (.memoryOutOfRange (s.pc.toNat + 1))) ∧
  (∀ x y n (s : State), ¬ RowsInMemory s n.val →
    ∃ t, exec (.drw x y n) s = .next t ∧ TakesFault (.memoryOutOfRange (max s.i.toNat s.memSize)) s t)

/-- R204, R205: a step or load that raises a fatal fault commits nothing but the fault and its report; after it a step and
a load do nothing, and only reset clears it. -/
def Obligations.FatalFaultIsPreciseAndFinal : Prop :=
  (∀ (s t : State) (f : Fault), s.fault = none → t.fault = some f →
    (step s = .next t ∨ ∃ bytes offset, t = s.load bytes offset) →
      t.toArch = { s.toArch with fault := some f } ∧ t.channel = s.channel ++ [.fault f]) ∧
  (∀ (s : State) (f : Fault), s.fault = some f →
    step s = .next s ∧ (∀ bytes offset, s.load bytes offset = s) ∧
    (∀ c t, portCall c s = .next t → t = s ∨ ∃ v i m, c = .reset v i m) ∧
    ∀ v i m, (s.hostReset v i m).fault = none)

/-- R30: `cycle` counts the steps that do not fault, by one each, starts at 0, and no instruction reads it. -/
def Obligations.CycleCountsCompletedSteps : Prop :=
  (∀ s t : State, s.fault = none → step s = .next t →
    (t.fault = none → t.cycle = s.cycle + 1) ∧ (t.fault ≠ none → t.cycle = s.cycle)) ∧
  (∀ (i : Instr) (s : State) (n : Nat), exec i (s.setCycle n) = mapNext (·.setCycle n) (exec i s)) ∧
  State.reset.cycle = 0

/-- A step emits at most one condition: a report goes with no fault, a fault with that fault recorded (R207, R219). -/
def Obligations.StepEmitsAtMostOneCondition : Prop :=
  ∀ s t : State, step s = .next t →
    t.channel = s.channel ∨
    (∃ op, Fetches s op ∧ t.fault = none ∧
      (t.channel = s.channel ++ [.unknownOpcode op] ∨ t.channel = s.channel ++ [.notImplemented op])) ∨
    (∃ f, s.fault = none ∧ t.fault = some f ∧ t.channel = s.channel ++ [.fault f])

/-- R82, R180, R181: the words of R82 report the opcode and change nothing beyond the advance of `pc` and `cycle`; no
other word reports. `channel` and `lastOpcode` are the model's own fields (notes/assumptions/8.md, 9.md). -/
def Obligations.StubWordsReportAndAdvance : Prop :=
  ∀ (s : State) (op : Word), Fetches s op →
    (UnknownWord op →
      step s = .next { s with pc := s.pc + 2, cycle := s.cycle + 1,
                              channel := s.channel ++ [.unknownOpcode op], lastOpcode := some op }) ∧
    (NotImplementedWord op →
      step s = .next { s with pc := s.pc + 2, cycle := s.cycle + 1,
                              channel := s.channel ++ [.notImplemented op], lastOpcode := some op }) ∧
    (¬ UnknownWord op → ¬ NotImplementedWord op → ∀ t, step s = .next t →
      t.channel = s.channel ∨ ∃ f, t.channel = s.channel ++ [.fault f])

/-- The one refusal is 8XYE under `SHL_MODE = refuse` on a register of 0x80 or more; its mark then stays, and no call has an
effect, until a reset clears it (R206, R230). That a step never answers `fault` is the model's form of R204
(notes/assumptions/1.md); that a load has no effect under the mark is the model's reading (notes/assumptions/10.md). -/
def Obligations.OnlyShiftLeftRefuses : Prop :=
  (∀ s : State,
    (∀ f, step s ≠ .fault f) ∧
    ∀ r, step s = .refused r ↔
      r = .shlRefused ∧ s.cfg.shl = .refuse ∧
        ∃ op x y, Fetches s op ∧ decodeWord op = .shl x y ∧ 0x80 ≤ (s.getV x).toNat) ∧
  ∀ (s : State) r, step s = .refused r →
    (∀ cs : List PortCall, (∀ v i m, PortCall.reset v i m ∉ cs) → portCalls (.step :: cs) s = .refused r) ∧
    ∀ (cs ds : List PortCall) v i m, (∀ v' i' m', PortCall.reset v' i' m' ∉ cs) →
      portCalls (.step :: (cs ++ .reset v i m :: ds)) s = portCalls ds (s.hostReset v i m)

/-! ### Rules over all instructions -/

/-- R56, derived by the spec from the stubs: no instruction writes memory; of the host's calls only `load` does, and reset. -/
def Obligations.LoadIsTheOnlyMemoryWriter : Prop :=
  (∀ (i : Instr) (s t : State), exec i s = .next t → ∀ a, t.mem.read a = s.mem.read a) ∧
  (∀ (c : PortCall) (s t : State), portCall c s = .next t → (∀ bytes offset, c ≠ .load bytes offset) →
    (∀ v i m, c ≠ .reset v i m) → ∀ a, t.mem.read a = s.mem.read a)

/-- Which instructions write each component: V, I, `pc`, `sp`, the stack, pixels, `running`, `fault` and the channel
(R21 to R31, R34, R200 to R207); none writes memory, and none `cycle`, which the step around it counts. The clauses on
`draws`, `channel`, `cfg` and `lastOpcode` are about the model's own fields (notes/assumptions/7.md, 8.md, 2.md, 9.md). -/
def Obligations.WritersOfEachComponent : Prop :=
  ∀ (i : Instr) (s t : State), exec i s = .next t →
    (∀ x, t.getV x ≠ s.getV x → HasDestination i x ∨ (x = vf ∧ WritesFlag i)) ∧
    (t.i ≠ s.i → (∃ nnn, i = .ldI nnn) ∨ (∃ x, i = .addI x) ∨ ∃ x, i = .ldF x) ∧
    (t.pc ≠ s.pc → Redirects i ∨ (CanFault i ∧ ∃ f, TakesFault f s t)) ∧
    (t.sp ≠ s.sp → i = .ret ∨ ∃ nnn, i = .call nnn) ∧
    ((∃ k, t.stackAt k ≠ s.stackAt k) → ∃ nnn, i = .call nnn) ∧
    ((∃ r c, t.pixel r c ≠ s.pixel r c) → i = .cls ∨ ∃ x y n, i = .drw x y n) ∧
    (∀ a, t.mem.read a = s.mem.read a) ∧
    (t.running ≠ s.running → (∃ nnn, i = .jp nnn ∧ nnn.toNat = (s.pc - 2).toNat) ∧ t.running = false) ∧
    (t.fault ≠ s.fault → CanFault i ∧ ∃ f, TakesFault f s t) ∧
    (t.channel ≠ s.channel →
      (CanFault i ∧ ∃ f, TakesFault f s t) ∨
      (t = s.emit (.unknownOpcode (encode i)) ∧ (i.wf = true → UnknownWord (encode i))) ∨
      (t = s.emit (.notImplemented (encode i)) ∧ (i.wf = true → NotImplementedWord (encode i)))) ∧
    (t.draws ≠ s.draws → ∃ x nn, i = .rnd x nn) ∧
    t.cfg = s.cfg ∧ t.cycle = s.cycle ∧ t.lastOpcode = s.lastOpcode

/-- R34: VF changes only by an instruction that writes a flag or has VF as its ordinary destination; a flag writer that
takes no fault leaves 0 or 1 in VF. -/
def Obligations.WritersOfTheFlag : Prop :=
  ∀ (i : Instr) (s t : State), exec i s = .next t →
    (t.getV vf ≠ s.getV vf →
      ((∃ x y, i = .addReg x y ∨ i = .subReg x y ∨ i = .subnReg x y) ∨ (∃ x y, i = .shr x y ∨ i = .shl x y) ∨
        (∃ x y n, i = .drw x y n)) ∨
      ((∃ nn, i = .ldImm vf nn ∨ i = .addImm vf nn ∨ i = .rnd vf nn) ∨
        (∃ y, i = .ldReg vf y ∨ i = .orReg vf y ∨ i = .andReg vf y ∨ i = .xorReg vf y))) ∧
    ((∃ x y, i = .addReg x y ∨ i = .subReg x y ∨ i = .subnReg x y) ∨ (∃ x y, i = .shr x y ∨ i = .shl x y) ∨
        (∃ x y n, i = .drw x y n) →
      t.getV vf = 0 ∨ t.getV vf = 1 ∨ ∃ f, TakesFault f s t)

/-- R29: only a self-jump clears `running`, nothing sets it, nothing reads it, a step does not test it, and reset makes
it true. -/
def Obligations.OnlySelfJumpClearsRunning : Prop :=
  (∀ s t : State, step s = .next t → t.running ≠ s.running →
    s.running = true ∧ t.running = false ∧
      ∃ op nnn, Fetches s op ∧ decodeWord op = .jp nnn ∧ nnn.toNat = s.pc.toNat) ∧
  (∀ (s : State) (b : Bool), ∃ b', step (s.setRunning b) = mapNext (·.setRunning b') (step s)) ∧
  State.reset.running = true ∧ ∀ (s : State) v i m, (s.hostReset v i m).running = true

/-- No instruction but the draw depends on a pixel, and the draw lets pixels reach only VF and pixels (R27). -/
def Obligations.PixelsReachOnlyTheCollisionFlag : Prop :=
  (∀ (i : Instr) (s : State) (g : Framebuffer), (∀ x y n, i ≠ .drw x y n) →
    ∃ g', exec i (s.setGfx g) = mapNext (·.setGfx g') (exec i s)) ∧
  (∀ x y n (s t : State) (g : Framebuffer), exec (.drw x y n) s = .next t →
    ∃ u, exec (.drw x y n) (s.setGfx g) = .next u ∧ OnlyChanges [vf] [.pixels] t u)

/-! ### The invariant -/

/-- Every step keeps the invariant: memory canonical and in range, `pc` at most 0x10FE, return addresses in range, a
recorded fault with its cause and its report. -/
def Obligations.StepKeepsInvariant : Prop :=
  ∀ s t : State, s.Inv → step s = .next t → t.Inv

/-- The reset state has the invariant. -/
def Obligations.ResetStateHasInvariant : Prop := State.reset.Inv

/-- Every sequence of port calls keeps the invariant, refusals and resets included: what the core owes the
host after every call (R219). -/
def Obligations.PortCallSequencesKeepInvariant : Prop :=
  ∀ (cs : List PortCall) (s t : State), s.Inv → portCalls cs s = .next t → t.Inv

/-! ### Control flow (spec 40_control_flow.md) -/

/-- R101: CLS zeroes every pixel and nothing else. -/
def Obligations.ClsClearsEveryPixel : Prop :=
  decodeWord 0x00E0 = .cls ∧
  ∀ s : State, ∃ t, exec .cls s = .next t ∧ (∀ r c, t.pixel r c = false) ∧ OnlyChanges [] [.pixels] s t

/-- R103: RET pops into `pc`; the entry is not cleared; with no entry it takes StackUnderflow at its own address
(the spec's decision D6). -/
def Obligations.RetPopsTheReturnAddress : Prop :=
  decodeWord 0x00EE = .ret ∧
  (∀ (s : State) (k : Fin 16), s.sp.val = k.val + 1 →
    ∃ t, exec .ret s = .next t ∧ t.sp.val = k.val ∧ t.pc = s.stackAt k ∧ OnlyChanges [] [.pc, .sp] s t) ∧
  (∀ s : State, s.sp = 0 → ∃ t, exec .ret s = .next t ∧ TakesFault (.stackUnderflow (s.pc - 2)) s t)

/-- R104: JP goes to NNN in any case and clears `running` exactly when NNN is its own address; a step that fetches a
self-jump changes nothing more but `cycle`, and so does every further one. `lastOpcode`, which it sets too, is the model's
own field (notes/assumptions/9.md). -/
def Obligations.JpJumpsAndDetectsItself : Prop :=
  (∀ w : Word, opF w = 0x1 → decodeWord w = .jp (opNNN w)) ∧
  (∀ (nnn : Addr) (s : State), ∃ t, exec (.jp nnn) s = .next t ∧ t.pc.toNat = nnn.toNat ∧
    t.running = (if nnn.toNat = (s.pc - 2).toNat then false else s.running) ∧ OnlyChanges [] [.pc, .running] s t) ∧
  ∀ (s : State) (op : Word) (nnn : Addr), Fetches s op → decodeWord op = .jp nnn → nnn.toNat = s.pc.toNat →
    ∃ t, step s = .next t ∧ t = { s with running := false, cycle := s.cycle + 1, lastOpcode := some op } ∧
      step t = .next (t.setCycle (t.cycle + 1))

/-- R105: CALL pushes the advanced `pc` and goes to NNN; with 16 entries it takes StackOverflow at its own
address (the spec's decision D5). -/
def Obligations.CallPushesTheReturnAddress : Prop :=
  (∀ w : Word, opF w = 0x2 → decodeWord w = .call (opNNN w)) ∧
  (∀ (nnn : Addr) (s : State), s.sp.val < 16 →
    ∃ t, exec (.call nnn) s = .next t ∧ t.pc.toNat = nnn.toNat ∧ t.sp.val = s.sp.val + 1 ∧
      (∀ k : Fin 16, t.stackAt k = if k.val = s.sp.val then s.pc else s.stackAt k) ∧
      OnlyChanges [] [.pc, .sp, .stack] s t) ∧
  (∀ (nnn : Addr) (s : State), s.sp = 16 →
    ∃ t, exec (.call nnn) s = .next t ∧ TakesFault (.stackOverflow (s.pc - 2)) s t)

/-- R106 to R109: the four skips advance `pc` by 2 more exactly on their condition. -/
def Obligations.SkipsAdvanceOnTheirCondition : Prop :=
  ((∀ w : Word, opF w = 0x3 → decodeWord w = .seImm (regOf (opX w)) (opNN w)) ∧
   (∀ w : Word, opF w = 0x4 → decodeWord w = .sneImm (regOf (opX w)) (opNN w)) ∧
   (∀ w : Word, opF w = 0x5 → decodeWord w = .seReg (regOf (opX w)) (regOf (opY w)) (opN w)) ∧
   (∀ w : Word, opF w = 0x9 → decodeWord w = .sneReg (regOf (opX w)) (regOf (opY w)) (opN w))) ∧
  (∀ x nn (s : State), ∃ t, exec (.seImm x nn) s = .next t ∧
    t.pc = (if s.getV x = nn then s.pc + 2 else s.pc) ∧ OnlyChanges [] [.pc] s t) ∧
  (∀ x nn (s : State), ∃ t, exec (.sneImm x nn) s = .next t ∧
    t.pc = (if s.getV x = nn then s.pc else s.pc + 2) ∧ OnlyChanges [] [.pc] s t) ∧
  (∀ x y n (s : State), ∃ t, exec (.seReg x y n) s = .next t ∧
    t.pc = (if s.getV x = s.getV y then s.pc + 2 else s.pc) ∧ OnlyChanges [] [.pc] s t) ∧
  (∀ x y n (s : State), ∃ t, exec (.sneReg x y n) s = .next t ∧
    t.pc = (if s.getV x = s.getV y then s.pc else s.pc + 2) ∧ OnlyChanges [] [.pc] s t)

/-- R110: BNNN goes to V0 plus NNN, neither masked nor compared with its own address. -/
def Obligations.JpV0AddsWithoutMasking : Prop :=
  (∀ w : Word, opF w = 0xB → decodeWord w = .jpV0 (opNNN w)) ∧
  ∀ (nnn : Addr) (s : State), ∃ t, exec (.jpV0 nnn) s = .next t ∧
    t.pc.toNat = (s.getV 0).toNat + nnn.toNat ∧ OnlyChanges [] [.pc] s t

/-- A CALL and, wherever the subroutine then stands, a RET bring back the CALL's own address plus 2 and the old `sp` (R111). -/
def Obligations.RetUndoesCall : Prop :=
  ∀ (nnn : Addr) (p : Word) (s : State), s.sp.val < 16 →
    ∃ t u, exec (.call nnn) s = .next t ∧ exec .ret (t.setPc p) = .next u ∧ u.pc = s.pc ∧ u.sp = s.sp ∧
      OnlyChanges [] [.stack] s u

/-! ### Register and arithmetic (spec 41_alu.md) -/

/-- R120, R121: 6XNN sets VX to NN, 7XNN adds NN modulo 256 and records no carry. -/
def Obligations.ImmediateLoadAndAdd : Prop :=
  (∀ w : Word, opF w = 0x6 → decodeWord w = .ldImm (regOf (opX w)) (opNN w)) ∧
  (∀ w : Word, opF w = 0x7 → decodeWord w = .addImm (regOf (opX w)) (opNN w)) ∧
  (∀ x nn (s : State), ∃ t, exec (.ldImm x nn) s = .next t ∧ t.getV x = nn ∧ OnlyChanges [x] [] s t) ∧
  (∀ x nn (s : State), ∃ t, exec (.addImm x nn) s = .next t ∧
    (t.getV x).toNat = ((s.getV x).toNat + nn.toNat) % 256 ∧ OnlyChanges [x] [] s t)

/-- R122 to R125: copy, OR, AND and XOR write VX only; VF is no flag of theirs. -/
def Obligations.CopyAndLogicWriteOnlyVx : Prop :=
  (∀ w : Word, opF w = 0x8 →
    (opN w = 0x0 → decodeWord w = .ldReg (regOf (opX w)) (regOf (opY w))) ∧
    (opN w = 0x1 → decodeWord w = .orReg (regOf (opX w)) (regOf (opY w))) ∧
    (opN w = 0x2 → decodeWord w = .andReg (regOf (opX w)) (regOf (opY w))) ∧
    (opN w = 0x3 → decodeWord w = .xorReg (regOf (opX w)) (regOf (opY w)))) ∧
  (∀ x y (s : State), ∃ t, exec (.ldReg x y) s = .next t ∧ t.getV x = s.getV y ∧ OnlyChanges [x] [] s t) ∧
  (∀ x y (s : State), ∃ t, exec (.orReg x y) s = .next t ∧ t.getV x = s.getV x ||| s.getV y ∧ OnlyChanges [x] [] s t) ∧
  (∀ x y (s : State), ∃ t, exec (.andReg x y) s = .next t ∧ t.getV x = s.getV x &&& s.getV y ∧ OnlyChanges [x] [] s t) ∧
  (∀ x y (s : State), ∃ t, exec (.xorReg x y) s = .next t ∧ t.getV x = s.getV x ^^^ s.getV y ∧ OnlyChanges [x] [] s t)

/-- R126: 8XY4 adds modulo 256; VF, written last, is 1 exactly when the exact sum is above `CARRY_THRESHOLD`. -/
def Obligations.AddRegisterSetsCarryAboveThreshold : Prop :=
  (∀ w : Word, opF w = 0x8 → opN w = 0x4 → decodeWord w = .addReg (regOf (opX w)) (regOf (opY w))) ∧
  carryThreshold .reference = 256 ∧ carryThreshold .standard = 255 ∧
  ∀ x y (s : State), ∃ t, exec (.addReg x y) s = .next t ∧
    (x ≠ vf → (t.getV x).toNat = ((s.getV x).toNat + (s.getV y).toNat) % 256) ∧
    t.getV vf = (if (s.getV x).toNat + (s.getV y).toNat > carryThreshold s.cfg.carry then 1 else 0) ∧
    OnlyChanges [x, vf] [] s t

/-- R127, R129: 8XY5 and 8XY7 subtract modulo 256; VF, written last, is 1 exactly when the difference is strictly
positive. -/
def Obligations.SubtractionsSetFlagWhenPositive : Prop :=
  (∀ w : Word, opF w = 0x8 → opN w = 0x5 → decodeWord w = .subReg (regOf (opX w)) (regOf (opY w))) ∧
  (∀ w : Word, opF w = 0x8 → opN w = 0x7 → decodeWord w = .subnReg (regOf (opX w)) (regOf (opY w))) ∧
  (∀ x y (s : State), ∃ t, exec (.subReg x y) s = .next t ∧
    (x ≠ vf → ((t.getV x).toNat : Int) = ((s.getV x).toNat - (s.getV y).toNat : Int) % 256) ∧
    t.getV vf = (if (s.getV y).toNat < (s.getV x).toNat then 1 else 0) ∧ OnlyChanges [x, vf] [] s t) ∧
  (∀ x y (s : State), ∃ t, exec (.subnReg x y) s = .next t ∧
    (x ≠ vf → ((t.getV x).toNat : Int) = ((s.getV y).toNat - (s.getV x).toNat : Int) % 256) ∧
    t.getV vf = (if (s.getV x).toNat < (s.getV y).toNat then 1 else 0) ∧ OnlyChanges [x, vf] [] s t)

/-- R128: 8XY6 shifts VX right by one, whatever Y is; VF, written last, is the old bit 0. -/
def Obligations.ShiftRightMovesLowBitToFlag : Prop :=
  (∀ w : Word, opF w = 0x8 → opN w = 0x6 → decodeWord w = .shr (regOf (opX w)) (opY w)) ∧
  ∀ x y (s : State), ∃ t, exec (.shr x y) s = .next t ∧
    (x ≠ vf → (t.getV x).toNat = (s.getV x).toNat / 2) ∧ (t.getV vf).toNat = (s.getV x).toNat % 2 ∧
    OnlyChanges [x, vf] [] s t

/-- R130: 8XYE shifts VX left by one within 8 bits, whatever Y is; VF, written last, is the old bit 7; under
`SHL_MODE = refuse` a register of 0x80 or more is refused. -/
def Obligations.ShiftLeftMovesHighBitToFlag : Prop :=
  (∀ w : Word, opF w = 0x8 → opN w = 0xE → decodeWord w = .shl (regOf (opX w)) (opY w)) ∧
  (∀ x y (s : State), s.cfg.shl = .mask ∨ (s.getV x).toNat < 0x80 →
    ∃ t, exec (.shl x y) s = .next t ∧
      (x ≠ vf → (t.getV x).toNat = (s.getV x).toNat * 2 % 256) ∧ (t.getV vf).toNat = (s.getV x).toNat / 128 ∧
      OnlyChanges [x, vf] [] s t) ∧
  (∀ x y (s : State), s.cfg.shl = .refuse → 0x80 ≤ (s.getV x).toNat → exec (.shl x y) s = .refused .shlRefused)

/-! ### Index register and random (spec 42_memory_index.md) -/

/-- R140, R142, R144: ANNN, FX1E and FX29 write I and nothing else, VF included. -/
def Obligations.IndexInstructionsWriteOnlyIndex : Prop :=
  (∀ w : Word, opF w = 0xA → decodeWord w = .ldI (opNNN w)) ∧
  (∀ w : Word, opF w = 0xF → opNN w = 0x1E → decodeWord w = .addI (regOf (opX w))) ∧
  (∀ w : Word, opF w = 0xF → opNN w = 0x29 → decodeWord w = .ldF (regOf (opX w))) ∧
  (indexAddMod .reference = 255 ∧ indexAddMod .byteRange = 256 ∧ indexAddMod .addressRange = 4096) ∧
  (∀ nnn (s : State), ∃ t, exec (.ldI nnn) s = .next t ∧ t.i = nnn ∧ OnlyChanges [] [.index] s t) ∧
  (∀ x (s : State), ∃ t, exec (.addI x) s = .next t ∧
    t.i.toNat = ((s.getV x).toNat + s.i.toNat) % indexAddMod s.cfg.indexMod ∧ OnlyChanges [] [.index] s t) ∧
  (∀ x (s : State), ∃ t, exec (.ldF x) s = .next t ∧ t.i.toNat = (s.getV x).toNat * 5 ∧ OnlyChanges [] [.index] s t)

/-- R146: CXNN writes a random byte masked with NN, whatever the byte: never a bit that NN lacks, 0 for NN = 0. Advancing
`draws` is the model's own way to a fresh byte (notes/assumptions/7.md). -/
def Obligations.RandomByteIsMasked : Prop :=
  (∀ w : Word, opF w = 0xC → decodeWord w = .rnd (regOf (opX w)) (opNN w)) ∧
  (∀ x nn (s : State), ∃ r t, exec (.rnd x nn) s = .next t ∧ t = rndWith r x nn s) ∧
  (∀ r x nn (s : State), (rndWith r x nn s).getV x = r &&& nn ∧ (rndWith r x nn s).getV x &&& ~~~nn = 0 ∧
    (nn = 0 → (rndWith r x nn s).getV x = 0) ∧ (nn = 0xFF → (rndWith r x nn s).getV x = r) ∧
    OnlyChanges [x] [.draws] s (rndWith r x nn s))

/-! ### Sprite draw (spec 43_draw.md) -/

/-- R160 to R164: a draw whose rows lie in memory overwrites its rectangle with the sprite's bits, sets VF to whether a 1
bit met a lit pixel, and changes nothing else; otherwise it takes MemoryOutOfRange of the first row outside. -/
def Obligations.DrawOverwritesRectangleAndFlagsCollision : Prop :=
  (∀ w : Word, opF w = 0xD → decodeWord w = .drw (regOf (opX w)) (regOf (opY w)) (opN w).toFin) ∧
  (∀ x y n (s : State), RowsInMemory s n.val →
    ∃ t, exec (.drw x y n) s = .next t ∧
      (∀ h w r c, h < n.val → w < 8 → LandsOn (s.getV x) (s.getV y) h w r c → t.pixel r c = spriteBitAt s h w) ∧
      (∀ r c, (∀ h w, h < n.val → w < 8 → ¬ LandsOn (s.getV x) (s.getV y) h w r c) → t.pixel r c = s.pixel r c) ∧
      ((∃ h w r c, h < n.val ∧ w < 8 ∧ LandsOn (s.getV x) (s.getV y) h w r c ∧
        spriteBitAt s h w = true ∧ s.pixel r c = true) → t.getV vf = 1) ∧
      ((¬ ∃ h w r c, h < n.val ∧ w < 8 ∧ LandsOn (s.getV x) (s.getV y) h w r c ∧
        spriteBitAt s h w = true ∧ s.pixel r c = true) → t.getV vf = 0) ∧
      OnlyChanges [vf] [.pixels] s t) ∧
  ∀ x y n (s : State) (h : Nat), h < n.val → s.memSize ≤ s.i.toNat + h →
    (∀ k, k < h → s.i.toNat + k < s.memSize) →
      ∃ t, exec (.drw x y n) s = .next t ∧ TakesFault (.memoryOutOfRange (s.i.toNat + h)) s t

/-- No two bits of a draw land on one pixel, and so bits plotted in either order give the same canvas (R165, derived by the
spec from R160 and R162). -/
def Obligations.DrawReachesEachPixelOnce : Prop :=
  (∀ (x y : Byte) (h h' w w' : Nat), h < 15 → h' < 15 → w < 8 → w' < 8 →
    spriteRow y h = spriteRow y h' → spriteCol x w = spriteCol x w' → h = h' ∧ w = w') ∧
  ∀ (d : Canvas) (x y : Byte) (h h' w w' : Nat) (b b' : Bool), h < 15 → h' < 15 → w < 8 → w' < 8 → (h, w) ≠ (h', w') →
    (d.plot (spriteRow y h) (spriteCol x w) b).plot (spriteRow y h') (spriteCol x w') b' =
      (d.plot (spriteRow y h') (spriteCol x w') b').plot (spriteRow y h) (spriteCol x w) b

/-- The same sprite drawn again at the same place leaves the pixels as they are, and VF tells whether the sprite has a 1
bit: the draw is no XOR (R163). -/
def Obligations.SecondDrawLeavesThePixels : Prop :=
  ∀ x y n (s : State), x ≠ vf → y ≠ vf → RowsInMemory s n.val →
    ∃ t u, exec (.drw x y n) s = .next t ∧ exec (.drw x y n) t = .next u ∧ (∀ r c, u.pixel r c = t.pixel r c) ∧
      ((∃ h w, h < n.val ∧ w < 8 ∧ spriteBitAt s h w = true) ↔ u.getV vf = 1)

/-! ### Stubs (spec 44_stubs.md) -/

/-- Each stub, UnknownOpcode or NotImplemented, emits its report and changes nothing else (R180, R181). -/
def Obligations.StubsOnlyReport : Prop :=
  (∀ nnn (s : State), exec (.unknown0NNN nnn) s = .next (s.emit (.unknownOpcode (encode (.unknown0NNN nnn))))) ∧
  (∀ x y (s : State), exec (.unknown8XY8 x y) s = .next (s.emit (.unknownOpcode (encode (.unknown8XY8 x y))))) ∧
  (∀ x y (s : State), exec (.unknown8XY9 x y) s = .next (s.emit (.unknownOpcode (encode (.unknown8XY9 x y))))) ∧
  (∀ x y (s : State), exec (.unknown8XYA x y) s = .next (s.emit (.unknownOpcode (encode (.unknown8XYA x y))))) ∧
  (∀ x y (s : State), exec (.unknown8XYB x y) s = .next (s.emit (.unknownOpcode (encode (.unknown8XYB x y))))) ∧
  (∀ x y (s : State), exec (.unknown8XYC x y) s = .next (s.emit (.unknownOpcode (encode (.unknown8XYC x y))))) ∧
  (∀ x y (s : State), exec (.unknown8XYD x y) s = .next (s.emit (.unknownOpcode (encode (.unknown8XYD x y))))) ∧
  (∀ x y (s : State), exec (.unknown8XYF x y) s = .next (s.emit (.unknownOpcode (encode (.unknown8XYF x y))))) ∧
  (∀ x nn (s : State), exec (.unknownFXnn x nn) s = .next (s.emit (.unknownOpcode (encode (.unknownFXnn x nn))))) ∧
  (∀ x (s : State), exec (.skpStub x) s = .next (s.emit (.notImplemented (encode (.skpStub x))))) ∧
  (∀ x (s : State), exec (.sknpStub x) s = .next (s.emit (.notImplemented (encode (.sknpStub x))))) ∧
  (∀ nnn (s : State), exec (.notHandledE nnn) s = .next (s.emit (.notImplemented (encode (.notHandledE nnn))))) ∧
  (∀ x (s : State), exec (.ldVxDtStub x) s = .next (s.emit (.notImplemented (encode (.ldVxDtStub x))))) ∧
  (∀ x (s : State), exec (.ldVxKStub x) s = .next (s.emit (.notImplemented (encode (.ldVxKStub x))))) ∧
  (∀ x (s : State), exec (.ldDtVxStub x) s = .next (s.emit (.notImplemented (encode (.ldDtVxStub x))))) ∧
  (∀ x (s : State), exec (.ldStVxStub x) s = .next (s.emit (.notImplemented (encode (.ldStVxStub x))))) ∧
  (∀ x (s : State), exec (.ldBVxStub x) s = .next (s.emit (.notImplemented (encode (.ldBVxStub x))))) ∧
  (∀ x (s : State), exec (.ldMemVxStub x) s = .next (s.emit (.notImplemented (encode (.ldMemVxStub x))))) ∧
  (∀ x (s : State), exec (.ldVxMemStub x) s = .next (s.emit (.notImplemented (encode (.ldVxMemStub x))))) ∧
  (∀ (s : State) c, (s.emit c).channel = s.channel ++ [c] ∧ OnlyChanges [] [.channel] s (s.emit c))

/-! ### Ports and reset (spec 20_memory.md, 70_reset_and_hazards.md) -/

/-- R55: `load` copies the bytes verbatim and changes nothing else, or, when they do not fit, writes none and takes
RomLoadOutOfRange (the spec's decision D8). -/
def Obligations.LoadCopiesTheBytesOrFaults : Prop :=
  (∀ (s : State) (bytes : List Byte) (offset : Nat), s.fault = none → s.mem.wf →
    offset + bytes.length ≤ s.memSize →
      (∀ k (h : k < bytes.length), (s.load bytes offset).mem.read (offset + k) = bytes[k]) ∧
      (∀ a, a < offset ∨ offset + bytes.length ≤ a → (s.load bytes offset).mem.read a = s.mem.read a) ∧
      OnlyChanges [] [.memory] s (s.load bytes offset)) ∧
  (∀ (s : State) (bytes : List Byte) (offset : Nat), s.fault = none → s.memSize < offset + bytes.length →
    (s.load bytes offset).fault = some (.romLoadOutOfRange offset bytes.length) ∧
      (s.load bytes offset).channel = s.channel ++ [.fault (.romLoadOutOfRange offset bytes.length)] ∧
      OnlyChanges [] [.fault, .channel] s (s.load bytes offset))

/-- After a load that fits, and any calls but a load or a reset, every fetch inside memory takes the loaded bytes where the
load's range covers `pc` or `pc + 1`, and elsewhere the bytes that were there (R61, derived by the spec from R51, R55, R56
and R59). -/
def Obligations.FetchSeesEveryLoad : Prop :=
  ∀ (s t : State) (bytes : List Byte) (offset : Nat) (cs : List PortCall) (op : Word), s.fault = none → s.mem.wf →
    offset + bytes.length ≤ s.memSize →
    (∀ b o, PortCall.load b o ∉ cs) → (∀ v i m, PortCall.reset v i m ∉ cs) →
    portCalls cs (s.load bytes offset) = .next t → t.fault = none → t.pc.toNat + 1 < t.memSize →
    (Fetches t op ↔
      op.toNat = (byteAfterLoad s bytes offset t.pc.toNat).toNat * 256 +
        (byteAfterLoad s bytes offset (t.pc.toNat + 1)).toNat)

/-- R37: what reset leaves, whatever the open values INIT_V, INIT_I and INIT_MEM are. The model's own reset state agrees
with it on every component that is not open. The form of the host's reset port is notes/assumptions/14.md. -/
def Obligations.ResetLeavesTheStatedValues : Prop :=
  (∀ (s : State) (v : Vector Byte 16) (i : Addr) (image : List Byte),
    (∀ x, (s.hostReset v i image).getV x = v[x]) ∧ (s.hostReset v i image).i = i ∧
    (∀ a (h : a < image.length), a < s.memSize → (s.hostReset v i image).mem.read a = image[a]) ∧
    (s.hostReset v i image).pc = 0x200 ∧ (s.hostReset v i image).sp = 0 ∧
    (∀ k, (s.hostReset v i image).stackAt k = 0) ∧ (∀ r c, (s.hostReset v i image).pixel r c = false) ∧
    (s.hostReset v i image).running = true ∧ (s.hostReset v i image).cycle = 0 ∧ (s.hostReset v i image).fault = none) ∧
  (State.reset.pc = 0x200 ∧ State.reset.sp = 0 ∧ (∀ k, State.reset.stackAt k = 0) ∧
    (∀ r c, State.reset.pixel r c = false) ∧ State.reset.running = true ∧ State.reset.cycle = 0 ∧
    State.reset.fault = none)

/-- Boot puts the font image at 0 and the program image at 0x200, and leaves the other bytes (R232, R233). -/
def Obligations.BootPlacesBothImages : Prop :=
  ∀ (s : State) (font program : List Byte), s.fault = none → s.mem.wf → font.length ≤ 0x200 →
    0x200 + program.length ≤ s.memSize →
      (∀ k (h : k < font.length), (s.boot font program).mem.read k = font[k]) ∧
      (∀ k (h : k < program.length), (s.boot font program).mem.read (0x200 + k) = program[k]) ∧
      (∀ a, font.length ≤ a → (a < 0x200 ∨ 0x200 + program.length ≤ a) →
        (s.boot font program).mem.read a = s.mem.read a) ∧
      OnlyChanges [] [.memory] s (s.boot font program)

/-- The read ports answer the components they name and change nothing (R166, R217, R218). -/
def Obligations.ReadPortsChangeNothing : Prop :=
  ∀ s : State, portCall .readFramebuffer s = .next s ∧ portCall .readRunning s = .next s ∧
    portCall .readDiagnostics s = .next s ∧
    (∀ (r : Fin 32) (c : Fin 64), s.framebufferSnapshot[r][c] = s.pixel r c) ∧ s.runningFlag = s.running ∧
    s.diagnosticSnapshot = ⟨s.cycle, s.lastOpcode, s.pc, s.v, s.sp, s.stack, s.i⟩

/-- The reset state has the default parameters of R9, which the model keeps in State (notes/assumptions/2.md, 3.md), and
the host's reset leaves whatever parameters there are (notes/assumptions/14.md). -/
def Obligations.ResetKeepsTheParameters : Prop :=
  State.reset.memSize = 4096 ∧ carryThreshold State.reset.cfg.carry = 256 ∧ State.reset.cfg.shl = .mask ∧
    indexAddMod State.reset.cfg.indexMod = 255 ∧ ∀ (s : State) v i m, (s.hostReset v i m).cfg = s.cfg
end

