-- ==== Sys2Proof/Laws/Decode.lean ====
section
/-! SUPPORT. The fields of each instruction format, and a word put together again from its fields. -/

namespace Sys2Proof

@[simp] theorem regOf_regBits (r : RegIx) : regOf (regBits r) = r := rfl

@[simp] theorem regBits_regOf (b : Nibble) : regBits (regOf b) = b := rfl

section Fields

variable (f x y n : Nibble) (nn : Byte) (a : Addr) (w : Word) (hi lo : Byte) (k : Nat)

/-! ### The bits of each format -/

theorem getLsbD_formatA : (formatA f a).getLsbD k = if k < 12 then a.getLsbD k else f.getLsbD (k - 12) :=
  BitVec.getLsbD_append

theorem getLsbD_formatXK : (formatXK f x nn).getLsbD k =
    if k < 8 then nn.getLsbD k else if k - 8 < 4 then x.getLsbD (k - 8) else f.getLsbD (k - 8 - 4) :=
  (BitVec.getLsbD_append (x := f ++ x) (y := nn)).trans (by rw [BitVec.getLsbD_append])

theorem getLsbD_formatXYN : (formatXYN f x y n).getLsbD k =
    if k < 4 then n.getLsbD k else if k - 4 < 4 then y.getLsbD (k - 4)
    else if k - 4 - 4 < 4 then x.getLsbD (k - 4 - 4) else f.getLsbD (k - 4 - 4 - 4) :=
  (BitVec.getLsbD_append (x := f ++ x ++ y) (y := n)).trans (by rw [BitVec.getLsbD_append, BitVec.getLsbD_append])

theorem getLsbD_bigEndianWord : (bigEndianWord hi lo).getLsbD k = if k < 8 then lo.getLsbD k else hi.getLsbD (k - 8) :=
  BitVec.getLsbD_append

/-! ### The fields of each format -/

@[simp] theorem opF_formatA : opF (formatA f a) = f := by
  apply BitVec.eq_of_getLsbD_eq
  intro k hk
  simp only [opF, BitVec.getLsbD_extractLsb', getLsbD_formatA]
  interval_cases k <;> simp

@[simp] theorem opNNN_formatA : opNNN (formatA f a) = a := by
  apply BitVec.eq_of_getLsbD_eq
  intro k hk
  simp only [opNNN, BitVec.getLsbD_extractLsb', getLsbD_formatA]
  interval_cases k <;> simp

@[simp] theorem opNN_formatA : opNN (formatA f a) = a.extractLsb' 0 8 := by
  apply BitVec.eq_of_getLsbD_eq
  intro k hk
  simp only [opNN, BitVec.getLsbD_extractLsb', getLsbD_formatA]
  interval_cases k <;> simp

@[simp] theorem opF_formatXK : opF (formatXK f x nn) = f := by
  apply BitVec.eq_of_getLsbD_eq
  intro k hk
  simp only [opF, BitVec.getLsbD_extractLsb', getLsbD_formatXK]
  interval_cases k <;> simp

@[simp] theorem opX_formatXK : opX (formatXK f x nn) = x := by
  apply BitVec.eq_of_getLsbD_eq
  intro k hk
  simp only [opX, BitVec.getLsbD_extractLsb', getLsbD_formatXK]
  interval_cases k <;> simp

@[simp] theorem opNN_formatXK : opNN (formatXK f x nn) = nn := by
  apply BitVec.eq_of_getLsbD_eq
  intro k hk
  simp only [opNN, BitVec.getLsbD_extractLsb', getLsbD_formatXK]
  interval_cases k <;> simp

@[simp] theorem opF_formatXYN : opF (formatXYN f x y n) = f := by
  apply BitVec.eq_of_getLsbD_eq
  intro k hk
  simp only [opF, BitVec.getLsbD_extractLsb', getLsbD_formatXYN]
  interval_cases k <;> simp

@[simp] theorem opX_formatXYN : opX (formatXYN f x y n) = x := by
  apply BitVec.eq_of_getLsbD_eq
  intro k hk
  simp only [opX, BitVec.getLsbD_extractLsb', getLsbD_formatXYN]
  interval_cases k <;> simp

@[simp] theorem opY_formatXYN : opY (formatXYN f x y n) = y := by
  apply BitVec.eq_of_getLsbD_eq
  intro k hk
  simp only [opY, BitVec.getLsbD_extractLsb', getLsbD_formatXYN]
  interval_cases k <;> simp

@[simp] theorem opN_formatXYN : opN (formatXYN f x y n) = n := by
  apply BitVec.eq_of_getLsbD_eq
  intro k hk
  simp only [opN, BitVec.getLsbD_extractLsb', getLsbD_formatXYN]
  interval_cases k <;> simp

@[simp] theorem highByte_bigEndianWord : highByte (bigEndianWord hi lo) = hi := by
  apply BitVec.eq_of_getLsbD_eq
  intro k hk
  simp only [highByte, BitVec.getLsbD_extractLsb', getLsbD_bigEndianWord]
  interval_cases k <;> simp

@[simp] theorem lowByte_bigEndianWord : lowByte (bigEndianWord hi lo) = lo := by
  apply BitVec.eq_of_getLsbD_eq
  intro k hk
  simp only [lowByte, BitVec.getLsbD_extractLsb', getLsbD_bigEndianWord]
  interval_cases k <;> simp

/-! ### A word is put together again from its fields -/

theorem formatA_fields : formatA (opF w) (opNNN w) = w := by
  apply BitVec.eq_of_getLsbD_eq
  intro k hk
  rw [getLsbD_formatA]
  simp only [opF, opNNN, BitVec.getLsbD_extractLsb']
  interval_cases k <;> simp

theorem formatXK_fields : formatXK (opF w) (opX w) (opNN w) = w := by
  apply BitVec.eq_of_getLsbD_eq
  intro k hk
  rw [getLsbD_formatXK]
  simp only [opF, opX, opNN, BitVec.getLsbD_extractLsb']
  interval_cases k <;> simp

theorem formatXYN_fields : formatXYN (opF w) (opX w) (opY w) (opN w) = w := by
  apply BitVec.eq_of_getLsbD_eq
  intro k hk
  rw [getLsbD_formatXYN]
  simp only [opF, opX, opY, opN, BitVec.getLsbD_extractLsb']
  interval_cases k <;> simp

theorem bigEndianWord_fields : bigEndianWord (highByte w) (lowByte w) = w := by
  apply BitVec.eq_of_getLsbD_eq
  intro k hk
  rw [getLsbD_bigEndianWord]
  simp only [highByte, lowByte, BitVec.getLsbD_extractLsb']
  interval_cases k <;> simp

/-! ### A format under the masks of the opcode table -/

theorem formatA_and_F000 : formatA f a &&& 0xF000#16 = formatA f 0 := by
  apply BitVec.eq_of_getLsbD_eq
  intro k hk
  simp only [BitVec.getLsbD_and, getLsbD_formatA]
  interval_cases k <;> simp

theorem formatXK_and_F000 : formatXK f x nn &&& 0xF000#16 = formatXK f 0 0 := by
  apply BitVec.eq_of_getLsbD_eq
  intro k hk
  simp only [BitVec.getLsbD_and, getLsbD_formatXK]
  interval_cases k <;> simp

theorem formatXK_and_F0FF : formatXK f x nn &&& 0xF0FF#16 = formatXK f 0 nn := by
  apply BitVec.eq_of_getLsbD_eq
  intro k hk
  simp only [BitVec.getLsbD_and, getLsbD_formatXK]
  interval_cases k <;> simp

theorem formatXYN_and_F000 : formatXYN f x y n &&& 0xF000#16 = formatXYN f 0 0 0 := by
  apply BitVec.eq_of_getLsbD_eq
  intro k hk
  simp only [BitVec.getLsbD_and, getLsbD_formatXYN]
  interval_cases k <;> simp

theorem formatXYN_and_F00F : formatXYN f x y n &&& 0xF00F#16 = formatXYN f 0 0 n := by
  apply BitVec.eq_of_getLsbD_eq
  intro k hk
  simp only [BitVec.getLsbD_and, getLsbD_formatXYN]
  interval_cases k <;> simp

end Fields

end Sys2Proof
end

