-- ==== Sys2Proof/Laws/State.lean ====
section
/-! SUPPORT. For every update of State, what each component is after it: one simp lemma per component per update, so that
no proof unfolds a record update. -/

namespace Sys2Proof.Machine.State

variable (s : State)

/-! ### A written register, stack entry or pixel, and the others -/

@[simp] theorem getV_setV (y : RegIx) (b : Byte) (x : RegIx) : (s.setV y b).getV x = if x = y then b else s.getV x := by
  simp only [getV, setV, Fin.getElem_fin, Vector.getElem_set, Fin.ext_iff, eq_comm]

theorem getV_setV_same (x : RegIx) (b : Byte) : (s.setV x b).getV x = b := by simp

theorem getV_setV_other (x y : RegIx) (b : Byte) (h : x ≠ y) : (s.setV y b).getV x = s.getV x := by simp [h]

@[simp] theorem getV_setFlag (p : Bool) (x : RegIx) :
    (s.setFlag p).getV x = if x = vf then flagByte p else s.getV x := getV_setV s vf (flagByte p) x

@[simp] theorem getV_setResultAndFlag (y : RegIx) (b : Byte) (p : Bool) (x : RegIx) :
    (s.setResultAndFlag y b p).getV x = if x = vf then flagByte p else if x = y then b else s.getV x := by
  simp [setResultAndFlag]

@[simp] theorem stackAt_setStackAt (j : Fin 16) (w : Word) (k : Fin 16) :
    (s.setStackAt j w).stackAt k = if k = j then w else s.stackAt k := by
  simp only [stackAt, setStackAt, Fin.getElem_fin, Vector.getElem_set, Fin.ext_iff, eq_comm]

@[simp] theorem pixel_setGfx (g : Framebuffer) (r : Fin 32) (c : Fin 64) : (s.setGfx g).pixel r c = g.at r c := rfl

theorem setV_getV (x : RegIx) : s.setV x (s.getV x) = s := by
  simp [setV, getV]

@[simp] theorem setV_setV (x : RegIx) (b c : Byte) : (s.setV x b).setV x c = s.setV x c := by
  simp [setV]

/-! ### setV -/

@[simp] theorem v_setV (y : RegIx) (b : Byte) : (s.setV y b).v = s.v.set y b := rfl
@[simp] theorem i_setV (y : RegIx) (b : Byte) : (s.setV y b).i = s.i := rfl
@[simp] theorem pc_setV (y : RegIx) (b : Byte) : (s.setV y b).pc = s.pc := rfl
@[simp] theorem sp_setV (y : RegIx) (b : Byte) : (s.setV y b).sp = s.sp := rfl
@[simp] theorem stack_setV (y : RegIx) (b : Byte) : (s.setV y b).stack = s.stack := rfl
@[simp] theorem gfx_setV (y : RegIx) (b : Byte) : (s.setV y b).gfx = s.gfx := rfl
@[simp] theorem mem_setV (y : RegIx) (b : Byte) : (s.setV y b).mem = s.mem := rfl
@[simp] theorem running_setV (y : RegIx) (b : Byte) : (s.setV y b).running = s.running := rfl
@[simp] theorem cycle_setV (y : RegIx) (b : Byte) : (s.setV y b).cycle = s.cycle := rfl
@[simp] theorem fault_setV (y : RegIx) (b : Byte) : (s.setV y b).fault = s.fault := rfl
@[simp] theorem cfg_setV (y : RegIx) (b : Byte) : (s.setV y b).cfg = s.cfg := rfl
@[simp] theorem draws_setV (y : RegIx) (b : Byte) : (s.setV y b).draws = s.draws := rfl
@[simp] theorem channel_setV (y : RegIx) (b : Byte) : (s.setV y b).channel = s.channel := rfl
@[simp] theorem lastOpcode_setV (y : RegIx) (b : Byte) : (s.setV y b).lastOpcode = s.lastOpcode := rfl
@[simp] theorem stackAt_setV (y : RegIx) (b : Byte) (k : Fin 16) : (s.setV y b).stackAt k = s.stackAt k := rfl
@[simp] theorem pixel_setV (y : RegIx) (b : Byte) (r : Fin 32) (c : Fin 64) : (s.setV y b).pixel r c = s.pixel r c := rfl
@[simp] theorem memSize_setV (y : RegIx) (b : Byte) : (s.setV y b).memSize = s.memSize := rfl

/-! ### setI -/

@[simp] theorem v_setI (a : Addr) : (s.setI a).v = s.v := rfl
@[simp] theorem i_setI (a : Addr) : (s.setI a).i = a := rfl
@[simp] theorem pc_setI (a : Addr) : (s.setI a).pc = s.pc := rfl
@[simp] theorem sp_setI (a : Addr) : (s.setI a).sp = s.sp := rfl
@[simp] theorem stack_setI (a : Addr) : (s.setI a).stack = s.stack := rfl
@[simp] theorem gfx_setI (a : Addr) : (s.setI a).gfx = s.gfx := rfl
@[simp] theorem mem_setI (a : Addr) : (s.setI a).mem = s.mem := rfl
@[simp] theorem running_setI (a : Addr) : (s.setI a).running = s.running := rfl
@[simp] theorem cycle_setI (a : Addr) : (s.setI a).cycle = s.cycle := rfl
@[simp] theorem fault_setI (a : Addr) : (s.setI a).fault = s.fault := rfl
@[simp] theorem cfg_setI (a : Addr) : (s.setI a).cfg = s.cfg := rfl
@[simp] theorem draws_setI (a : Addr) : (s.setI a).draws = s.draws := rfl
@[simp] theorem channel_setI (a : Addr) : (s.setI a).channel = s.channel := rfl
@[simp] theorem lastOpcode_setI (a : Addr) : (s.setI a).lastOpcode = s.lastOpcode := rfl
@[simp] theorem getV_setI (a : Addr) (x : RegIx) : (s.setI a).getV x = s.getV x := rfl
@[simp] theorem stackAt_setI (a : Addr) (k : Fin 16) : (s.setI a).stackAt k = s.stackAt k := rfl
@[simp] theorem pixel_setI (a : Addr) (r : Fin 32) (c : Fin 64) : (s.setI a).pixel r c = s.pixel r c := rfl
@[simp] theorem memSize_setI (a : Addr) : (s.setI a).memSize = s.memSize := rfl

/-! ### setPc -/

@[simp] theorem v_setPc (a : Word) : (s.setPc a).v = s.v := rfl
@[simp] theorem i_setPc (a : Word) : (s.setPc a).i = s.i := rfl
@[simp] theorem pc_setPc (a : Word) : (s.setPc a).pc = a := rfl
@[simp] theorem sp_setPc (a : Word) : (s.setPc a).sp = s.sp := rfl
@[simp] theorem stack_setPc (a : Word) : (s.setPc a).stack = s.stack := rfl
@[simp] theorem gfx_setPc (a : Word) : (s.setPc a).gfx = s.gfx := rfl
@[simp] theorem mem_setPc (a : Word) : (s.setPc a).mem = s.mem := rfl
@[simp] theorem running_setPc (a : Word) : (s.setPc a).running = s.running := rfl
@[simp] theorem cycle_setPc (a : Word) : (s.setPc a).cycle = s.cycle := rfl
@[simp] theorem fault_setPc (a : Word) : (s.setPc a).fault = s.fault := rfl
@[simp] theorem cfg_setPc (a : Word) : (s.setPc a).cfg = s.cfg := rfl
@[simp] theorem draws_setPc (a : Word) : (s.setPc a).draws = s.draws := rfl
@[simp] theorem channel_setPc (a : Word) : (s.setPc a).channel = s.channel := rfl
@[simp] theorem lastOpcode_setPc (a : Word) : (s.setPc a).lastOpcode = s.lastOpcode := rfl
@[simp] theorem getV_setPc (a : Word) (x : RegIx) : (s.setPc a).getV x = s.getV x := rfl
@[simp] theorem stackAt_setPc (a : Word) (k : Fin 16) : (s.setPc a).stackAt k = s.stackAt k := rfl
@[simp] theorem pixel_setPc (a : Word) (r : Fin 32) (c : Fin 64) : (s.setPc a).pixel r c = s.pixel r c := rfl
@[simp] theorem memSize_setPc (a : Word) : (s.setPc a).memSize = s.memSize := rfl

/-! ### setSp -/

@[simp] theorem v_setSp (n : Fin 17) : (s.setSp n).v = s.v := rfl
@[simp] theorem i_setSp (n : Fin 17) : (s.setSp n).i = s.i := rfl
@[simp] theorem pc_setSp (n : Fin 17) : (s.setSp n).pc = s.pc := rfl
@[simp] theorem sp_setSp (n : Fin 17) : (s.setSp n).sp = n := rfl
@[simp] theorem stack_setSp (n : Fin 17) : (s.setSp n).stack = s.stack := rfl
@[simp] theorem gfx_setSp (n : Fin 17) : (s.setSp n).gfx = s.gfx := rfl
@[simp] theorem mem_setSp (n : Fin 17) : (s.setSp n).mem = s.mem := rfl
@[simp] theorem running_setSp (n : Fin 17) : (s.setSp n).running = s.running := rfl
@[simp] theorem cycle_setSp (n : Fin 17) : (s.setSp n).cycle = s.cycle := rfl
@[simp] theorem fault_setSp (n : Fin 17) : (s.setSp n).fault = s.fault := rfl
@[simp] theorem cfg_setSp (n : Fin 17) : (s.setSp n).cfg = s.cfg := rfl
@[simp] theorem draws_setSp (n : Fin 17) : (s.setSp n).draws = s.draws := rfl
@[simp] theorem channel_setSp (n : Fin 17) : (s.setSp n).channel = s.channel := rfl
@[simp] theorem lastOpcode_setSp (n : Fin 17) : (s.setSp n).lastOpcode = s.lastOpcode := rfl
@[simp] theorem getV_setSp (n : Fin 17) (x : RegIx) : (s.setSp n).getV x = s.getV x := rfl
@[simp] theorem stackAt_setSp (n : Fin 17) (k : Fin 16) : (s.setSp n).stackAt k = s.stackAt k := rfl
@[simp] theorem pixel_setSp (n : Fin 17) (r : Fin 32) (c : Fin 64) : (s.setSp n).pixel r c = s.pixel r c := rfl
@[simp] theorem memSize_setSp (n : Fin 17) : (s.setSp n).memSize = s.memSize := rfl

/-! ### setStackAt -/

@[simp] theorem v_setStackAt (j : Fin 16) (w : Word) : (s.setStackAt j w).v = s.v := rfl
@[simp] theorem i_setStackAt (j : Fin 16) (w : Word) : (s.setStackAt j w).i = s.i := rfl
@[simp] theorem pc_setStackAt (j : Fin 16) (w : Word) : (s.setStackAt j w).pc = s.pc := rfl
@[simp] theorem sp_setStackAt (j : Fin 16) (w : Word) : (s.setStackAt j w).sp = s.sp := rfl
@[simp] theorem stack_setStackAt (j : Fin 16) (w : Word) : (s.setStackAt j w).stack = s.stack.set j w := rfl
@[simp] theorem gfx_setStackAt (j : Fin 16) (w : Word) : (s.setStackAt j w).gfx = s.gfx := rfl
@[simp] theorem mem_setStackAt (j : Fin 16) (w : Word) : (s.setStackAt j w).mem = s.mem := rfl
@[simp] theorem running_setStackAt (j : Fin 16) (w : Word) : (s.setStackAt j w).running = s.running := rfl
@[simp] theorem cycle_setStackAt (j : Fin 16) (w : Word) : (s.setStackAt j w).cycle = s.cycle := rfl
@[simp] theorem fault_setStackAt (j : Fin 16) (w : Word) : (s.setStackAt j w).fault = s.fault := rfl
@[simp] theorem cfg_setStackAt (j : Fin 16) (w : Word) : (s.setStackAt j w).cfg = s.cfg := rfl
@[simp] theorem draws_setStackAt (j : Fin 16) (w : Word) : (s.setStackAt j w).draws = s.draws := rfl
@[simp] theorem channel_setStackAt (j : Fin 16) (w : Word) : (s.setStackAt j w).channel = s.channel := rfl
@[simp] theorem lastOpcode_setStackAt (j : Fin 16) (w : Word) : (s.setStackAt j w).lastOpcode = s.lastOpcode := rfl
@[simp] theorem getV_setStackAt (j : Fin 16) (w : Word) (x : RegIx) : (s.setStackAt j w).getV x = s.getV x := rfl
@[simp] theorem pixel_setStackAt (j : Fin 16) (w : Word) (r : Fin 32) (c : Fin 64) : (s.setStackAt j w).pixel r c = s.pixel r c := rfl
@[simp] theorem memSize_setStackAt (j : Fin 16) (w : Word) : (s.setStackAt j w).memSize = s.memSize := rfl

/-! ### setGfx -/

@[simp] theorem v_setGfx (g : Framebuffer) : (s.setGfx g).v = s.v := rfl
@[simp] theorem i_setGfx (g : Framebuffer) : (s.setGfx g).i = s.i := rfl
@[simp] theorem pc_setGfx (g : Framebuffer) : (s.setGfx g).pc = s.pc := rfl
@[simp] theorem sp_setGfx (g : Framebuffer) : (s.setGfx g).sp = s.sp := rfl
@[simp] theorem stack_setGfx (g : Framebuffer) : (s.setGfx g).stack = s.stack := rfl
@[simp] theorem gfx_setGfx (g : Framebuffer) : (s.setGfx g).gfx = g := rfl
@[simp] theorem mem_setGfx (g : Framebuffer) : (s.setGfx g).mem = s.mem := rfl
@[simp] theorem running_setGfx (g : Framebuffer) : (s.setGfx g).running = s.running := rfl
@[simp] theorem cycle_setGfx (g : Framebuffer) : (s.setGfx g).cycle = s.cycle := rfl
@[simp] theorem fault_setGfx (g : Framebuffer) : (s.setGfx g).fault = s.fault := rfl
@[simp] theorem cfg_setGfx (g : Framebuffer) : (s.setGfx g).cfg = s.cfg := rfl
@[simp] theorem draws_setGfx (g : Framebuffer) : (s.setGfx g).draws = s.draws := rfl
@[simp] theorem channel_setGfx (g : Framebuffer) : (s.setGfx g).channel = s.channel := rfl
@[simp] theorem lastOpcode_setGfx (g : Framebuffer) : (s.setGfx g).lastOpcode = s.lastOpcode := rfl
@[simp] theorem getV_setGfx (g : Framebuffer) (x : RegIx) : (s.setGfx g).getV x = s.getV x := rfl
@[simp] theorem stackAt_setGfx (g : Framebuffer) (k : Fin 16) : (s.setGfx g).stackAt k = s.stackAt k := rfl
@[simp] theorem memSize_setGfx (g : Framebuffer) : (s.setGfx g).memSize = s.memSize := rfl

/-! ### setMem -/

@[simp] theorem v_setMem (m : Memory) : (s.setMem m).v = s.v := rfl
@[simp] theorem i_setMem (m : Memory) : (s.setMem m).i = s.i := rfl
@[simp] theorem pc_setMem (m : Memory) : (s.setMem m).pc = s.pc := rfl
@[simp] theorem sp_setMem (m : Memory) : (s.setMem m).sp = s.sp := rfl
@[simp] theorem stack_setMem (m : Memory) : (s.setMem m).stack = s.stack := rfl
@[simp] theorem gfx_setMem (m : Memory) : (s.setMem m).gfx = s.gfx := rfl
@[simp] theorem mem_setMem (m : Memory) : (s.setMem m).mem = m := rfl
@[simp] theorem running_setMem (m : Memory) : (s.setMem m).running = s.running := rfl
@[simp] theorem cycle_setMem (m : Memory) : (s.setMem m).cycle = s.cycle := rfl
@[simp] theorem fault_setMem (m : Memory) : (s.setMem m).fault = s.fault := rfl
@[simp] theorem cfg_setMem (m : Memory) : (s.setMem m).cfg = s.cfg := rfl
@[simp] theorem draws_setMem (m : Memory) : (s.setMem m).draws = s.draws := rfl
@[simp] theorem channel_setMem (m : Memory) : (s.setMem m).channel = s.channel := rfl
@[simp] theorem lastOpcode_setMem (m : Memory) : (s.setMem m).lastOpcode = s.lastOpcode := rfl
@[simp] theorem getV_setMem (m : Memory) (x : RegIx) : (s.setMem m).getV x = s.getV x := rfl
@[simp] theorem stackAt_setMem (m : Memory) (k : Fin 16) : (s.setMem m).stackAt k = s.stackAt k := rfl
@[simp] theorem pixel_setMem (m : Memory) (r : Fin 32) (c : Fin 64) : (s.setMem m).pixel r c = s.pixel r c := rfl
@[simp] theorem memSize_setMem (m : Memory) : (s.setMem m).memSize = s.memSize := rfl

/-! ### setRunning -/

@[simp] theorem v_setRunning (b : Bool) : (s.setRunning b).v = s.v := rfl
@[simp] theorem i_setRunning (b : Bool) : (s.setRunning b).i = s.i := rfl
@[simp] theorem pc_setRunning (b : Bool) : (s.setRunning b).pc = s.pc := rfl
@[simp] theorem sp_setRunning (b : Bool) : (s.setRunning b).sp = s.sp := rfl
@[simp] theorem stack_setRunning (b : Bool) : (s.setRunning b).stack = s.stack := rfl
@[simp] theorem gfx_setRunning (b : Bool) : (s.setRunning b).gfx = s.gfx := rfl
@[simp] theorem mem_setRunning (b : Bool) : (s.setRunning b).mem = s.mem := rfl
@[simp] theorem running_setRunning (b : Bool) : (s.setRunning b).running = b := rfl
@[simp] theorem cycle_setRunning (b : Bool) : (s.setRunning b).cycle = s.cycle := rfl
@[simp] theorem fault_setRunning (b : Bool) : (s.setRunning b).fault = s.fault := rfl
@[simp] theorem cfg_setRunning (b : Bool) : (s.setRunning b).cfg = s.cfg := rfl
@[simp] theorem draws_setRunning (b : Bool) : (s.setRunning b).draws = s.draws := rfl
@[simp] theorem channel_setRunning (b : Bool) : (s.setRunning b).channel = s.channel := rfl
@[simp] theorem lastOpcode_setRunning (b : Bool) : (s.setRunning b).lastOpcode = s.lastOpcode := rfl
@[simp] theorem getV_setRunning (b : Bool) (x : RegIx) : (s.setRunning b).getV x = s.getV x := rfl
@[simp] theorem stackAt_setRunning (b : Bool) (k : Fin 16) : (s.setRunning b).stackAt k = s.stackAt k := rfl
@[simp] theorem pixel_setRunning (b : Bool) (r : Fin 32) (c : Fin 64) : (s.setRunning b).pixel r c = s.pixel r c := rfl
@[simp] theorem memSize_setRunning (b : Bool) : (s.setRunning b).memSize = s.memSize := rfl

/-! ### setCycle -/

@[simp] theorem v_setCycle (n : Nat) : (s.setCycle n).v = s.v := rfl
@[simp] theorem i_setCycle (n : Nat) : (s.setCycle n).i = s.i := rfl
@[simp] theorem pc_setCycle (n : Nat) : (s.setCycle n).pc = s.pc := rfl
@[simp] theorem sp_setCycle (n : Nat) : (s.setCycle n).sp = s.sp := rfl
@[simp] theorem stack_setCycle (n : Nat) : (s.setCycle n).stack = s.stack := rfl
@[simp] theorem gfx_setCycle (n : Nat) : (s.setCycle n).gfx = s.gfx := rfl
@[simp] theorem mem_setCycle (n : Nat) : (s.setCycle n).mem = s.mem := rfl
@[simp] theorem running_setCycle (n : Nat) : (s.setCycle n).running = s.running := rfl
@[simp] theorem cycle_setCycle (n : Nat) : (s.setCycle n).cycle = n := rfl
@[simp] theorem fault_setCycle (n : Nat) : (s.setCycle n).fault = s.fault := rfl
@[simp] theorem cfg_setCycle (n : Nat) : (s.setCycle n).cfg = s.cfg := rfl
@[simp] theorem draws_setCycle (n : Nat) : (s.setCycle n).draws = s.draws := rfl
@[simp] theorem channel_setCycle (n : Nat) : (s.setCycle n).channel = s.channel := rfl
@[simp] theorem lastOpcode_setCycle (n : Nat) : (s.setCycle n).lastOpcode = s.lastOpcode := rfl
@[simp] theorem getV_setCycle (n : Nat) (x : RegIx) : (s.setCycle n).getV x = s.getV x := rfl
@[simp] theorem stackAt_setCycle (n : Nat) (k : Fin 16) : (s.setCycle n).stackAt k = s.stackAt k := rfl
@[simp] theorem pixel_setCycle (n : Nat) (r : Fin 32) (c : Fin 64) : (s.setCycle n).pixel r c = s.pixel r c := rfl
@[simp] theorem memSize_setCycle (n : Nat) : (s.setCycle n).memSize = s.memSize := rfl

/-! ### setFault -/

@[simp] theorem v_setFault (f : Option Fault) : (s.setFault f).v = s.v := rfl
@[simp] theorem i_setFault (f : Option Fault) : (s.setFault f).i = s.i := rfl
@[simp] theorem pc_setFault (f : Option Fault) : (s.setFault f).pc = s.pc := rfl
@[simp] theorem sp_setFault (f : Option Fault) : (s.setFault f).sp = s.sp := rfl
@[simp] theorem stack_setFault (f : Option Fault) : (s.setFault f).stack = s.stack := rfl
@[simp] theorem gfx_setFault (f : Option Fault) : (s.setFault f).gfx = s.gfx := rfl
@[simp] theorem mem_setFault (f : Option Fault) : (s.setFault f).mem = s.mem := rfl
@[simp] theorem running_setFault (f : Option Fault) : (s.setFault f).running = s.running := rfl
@[simp] theorem cycle_setFault (f : Option Fault) : (s.setFault f).cycle = s.cycle := rfl
@[simp] theorem fault_setFault (f : Option Fault) : (s.setFault f).fault = f := rfl
@[simp] theorem cfg_setFault (f : Option Fault) : (s.setFault f).cfg = s.cfg := rfl
@[simp] theorem draws_setFault (f : Option Fault) : (s.setFault f).draws = s.draws := rfl
@[simp] theorem channel_setFault (f : Option Fault) : (s.setFault f).channel = s.channel := rfl
@[simp] theorem lastOpcode_setFault (f : Option Fault) : (s.setFault f).lastOpcode = s.lastOpcode := rfl
@[simp] theorem getV_setFault (f : Option Fault) (x : RegIx) : (s.setFault f).getV x = s.getV x := rfl
@[simp] theorem stackAt_setFault (f : Option Fault) (k : Fin 16) : (s.setFault f).stackAt k = s.stackAt k := rfl
@[simp] theorem pixel_setFault (f : Option Fault) (r : Fin 32) (c : Fin 64) : (s.setFault f).pixel r c = s.pixel r c := rfl
@[simp] theorem memSize_setFault (f : Option Fault) : (s.setFault f).memSize = s.memSize := rfl

/-! ### setDraws -/

@[simp] theorem v_setDraws (n : Nat) : (s.setDraws n).v = s.v := rfl
@[simp] theorem i_setDraws (n : Nat) : (s.setDraws n).i = s.i := rfl
@[simp] theorem pc_setDraws (n : Nat) : (s.setDraws n).pc = s.pc := rfl
@[simp] theorem sp_setDraws (n : Nat) : (s.setDraws n).sp = s.sp := rfl
@[simp] theorem stack_setDraws (n : Nat) : (s.setDraws n).stack = s.stack := rfl
@[simp] theorem gfx_setDraws (n : Nat) : (s.setDraws n).gfx = s.gfx := rfl
@[simp] theorem mem_setDraws (n : Nat) : (s.setDraws n).mem = s.mem := rfl
@[simp] theorem running_setDraws (n : Nat) : (s.setDraws n).running = s.running := rfl
@[simp] theorem cycle_setDraws (n : Nat) : (s.setDraws n).cycle = s.cycle := rfl
@[simp] theorem fault_setDraws (n : Nat) : (s.setDraws n).fault = s.fault := rfl
@[simp] theorem cfg_setDraws (n : Nat) : (s.setDraws n).cfg = s.cfg := rfl
@[simp] theorem draws_setDraws (n : Nat) : (s.setDraws n).draws = n := rfl
@[simp] theorem channel_setDraws (n : Nat) : (s.setDraws n).channel = s.channel := rfl
@[simp] theorem lastOpcode_setDraws (n : Nat) : (s.setDraws n).lastOpcode = s.lastOpcode := rfl
@[simp] theorem getV_setDraws (n : Nat) (x : RegIx) : (s.setDraws n).getV x = s.getV x := rfl
@[simp] theorem stackAt_setDraws (n : Nat) (k : Fin 16) : (s.setDraws n).stackAt k = s.stackAt k := rfl
@[simp] theorem pixel_setDraws (n : Nat) (r : Fin 32) (c : Fin 64) : (s.setDraws n).pixel r c = s.pixel r c := rfl
@[simp] theorem memSize_setDraws (n : Nat) : (s.setDraws n).memSize = s.memSize := rfl

/-! ### setLastOpcode -/

@[simp] theorem v_setLastOpcode (w : Option Word) : (s.setLastOpcode w).v = s.v := rfl
@[simp] theorem i_setLastOpcode (w : Option Word) : (s.setLastOpcode w).i = s.i := rfl
@[simp] theorem pc_setLastOpcode (w : Option Word) : (s.setLastOpcode w).pc = s.pc := rfl
@[simp] theorem sp_setLastOpcode (w : Option Word) : (s.setLastOpcode w).sp = s.sp := rfl
@[simp] theorem stack_setLastOpcode (w : Option Word) : (s.setLastOpcode w).stack = s.stack := rfl
@[simp] theorem gfx_setLastOpcode (w : Option Word) : (s.setLastOpcode w).gfx = s.gfx := rfl
@[simp] theorem mem_setLastOpcode (w : Option Word) : (s.setLastOpcode w).mem = s.mem := rfl
@[simp] theorem running_setLastOpcode (w : Option Word) : (s.setLastOpcode w).running = s.running := rfl
@[simp] theorem cycle_setLastOpcode (w : Option Word) : (s.setLastOpcode w).cycle = s.cycle := rfl
@[simp] theorem fault_setLastOpcode (w : Option Word) : (s.setLastOpcode w).fault = s.fault := rfl
@[simp] theorem cfg_setLastOpcode (w : Option Word) : (s.setLastOpcode w).cfg = s.cfg := rfl
@[simp] theorem draws_setLastOpcode (w : Option Word) : (s.setLastOpcode w).draws = s.draws := rfl
@[simp] theorem channel_setLastOpcode (w : Option Word) : (s.setLastOpcode w).channel = s.channel := rfl
@[simp] theorem lastOpcode_setLastOpcode (w : Option Word) : (s.setLastOpcode w).lastOpcode = w := rfl
@[simp] theorem getV_setLastOpcode (w : Option Word) (x : RegIx) : (s.setLastOpcode w).getV x = s.getV x := rfl
@[simp] theorem stackAt_setLastOpcode (w : Option Word) (k : Fin 16) : (s.setLastOpcode w).stackAt k = s.stackAt k := rfl
@[simp] theorem pixel_setLastOpcode (w : Option Word) (r : Fin 32) (c : Fin 64) : (s.setLastOpcode w).pixel r c = s.pixel r c := rfl
@[simp] theorem memSize_setLastOpcode (w : Option Word) : (s.setLastOpcode w).memSize = s.memSize := rfl

/-! ### emit -/

@[simp] theorem v_emit (d : Condition) : (s.emit d).v = s.v := rfl
@[simp] theorem i_emit (d : Condition) : (s.emit d).i = s.i := rfl
@[simp] theorem pc_emit (d : Condition) : (s.emit d).pc = s.pc := rfl
@[simp] theorem sp_emit (d : Condition) : (s.emit d).sp = s.sp := rfl
@[simp] theorem stack_emit (d : Condition) : (s.emit d).stack = s.stack := rfl
@[simp] theorem gfx_emit (d : Condition) : (s.emit d).gfx = s.gfx := rfl
@[simp] theorem mem_emit (d : Condition) : (s.emit d).mem = s.mem := rfl
@[simp] theorem running_emit (d : Condition) : (s.emit d).running = s.running := rfl
@[simp] theorem cycle_emit (d : Condition) : (s.emit d).cycle = s.cycle := rfl
@[simp] theorem fault_emit (d : Condition) : (s.emit d).fault = s.fault := rfl
@[simp] theorem cfg_emit (d : Condition) : (s.emit d).cfg = s.cfg := rfl
@[simp] theorem draws_emit (d : Condition) : (s.emit d).draws = s.draws := rfl
@[simp] theorem channel_emit (d : Condition) : (s.emit d).channel = s.channel ++ [d] := rfl
@[simp] theorem lastOpcode_emit (d : Condition) : (s.emit d).lastOpcode = s.lastOpcode := rfl
@[simp] theorem getV_emit (d : Condition) (x : RegIx) : (s.emit d).getV x = s.getV x := rfl
@[simp] theorem stackAt_emit (d : Condition) (k : Fin 16) : (s.emit d).stackAt k = s.stackAt k := rfl
@[simp] theorem pixel_emit (d : Condition) (r : Fin 32) (c : Fin 64) : (s.emit d).pixel r c = s.pixel r c := rfl
@[simp] theorem memSize_emit (d : Condition) : (s.emit d).memSize = s.memSize := rfl

/-! ### latchFault -/

@[simp] theorem v_latchFault (f : Fault) : (s.latchFault f).v = s.v := rfl
@[simp] theorem i_latchFault (f : Fault) : (s.latchFault f).i = s.i := rfl
@[simp] theorem pc_latchFault (f : Fault) : (s.latchFault f).pc = s.pc := rfl
@[simp] theorem sp_latchFault (f : Fault) : (s.latchFault f).sp = s.sp := rfl
@[simp] theorem stack_latchFault (f : Fault) : (s.latchFault f).stack = s.stack := rfl
@[simp] theorem gfx_latchFault (f : Fault) : (s.latchFault f).gfx = s.gfx := rfl
@[simp] theorem mem_latchFault (f : Fault) : (s.latchFault f).mem = s.mem := rfl
@[simp] theorem running_latchFault (f : Fault) : (s.latchFault f).running = s.running := rfl
@[simp] theorem cycle_latchFault (f : Fault) : (s.latchFault f).cycle = s.cycle := rfl
@[simp] theorem fault_latchFault (f : Fault) : (s.latchFault f).fault = some f := rfl
@[simp] theorem cfg_latchFault (f : Fault) : (s.latchFault f).cfg = s.cfg := rfl
@[simp] theorem draws_latchFault (f : Fault) : (s.latchFault f).draws = s.draws := rfl
@[simp] theorem channel_latchFault (f : Fault) : (s.latchFault f).channel = s.channel ++ [.fault f] := rfl
@[simp] theorem lastOpcode_latchFault (f : Fault) : (s.latchFault f).lastOpcode = s.lastOpcode := rfl
@[simp] theorem getV_latchFault (f : Fault) (x : RegIx) : (s.latchFault f).getV x = s.getV x := rfl
@[simp] theorem stackAt_latchFault (f : Fault) (k : Fin 16) : (s.latchFault f).stackAt k = s.stackAt k := rfl
@[simp] theorem pixel_latchFault (f : Fault) (r : Fin 32) (c : Fin 64) : (s.latchFault f).pixel r c = s.pixel r c := rfl
@[simp] theorem memSize_latchFault (f : Fault) : (s.latchFault f).memSize = s.memSize := rfl

/-! ### fetched -/

@[simp] theorem v_fetched (w : Word) : (s.fetched w).v = s.v := rfl
@[simp] theorem i_fetched (w : Word) : (s.fetched w).i = s.i := rfl
@[simp] theorem pc_fetched (w : Word) : (s.fetched w).pc = s.pc + 2 := rfl
@[simp] theorem sp_fetched (w : Word) : (s.fetched w).sp = s.sp := rfl
@[simp] theorem stack_fetched (w : Word) : (s.fetched w).stack = s.stack := rfl
@[simp] theorem gfx_fetched (w : Word) : (s.fetched w).gfx = s.gfx := rfl
@[simp] theorem mem_fetched (w : Word) : (s.fetched w).mem = s.mem := rfl
@[simp] theorem running_fetched (w : Word) : (s.fetched w).running = s.running := rfl
@[simp] theorem cycle_fetched (w : Word) : (s.fetched w).cycle = s.cycle := rfl
@[simp] theorem fault_fetched (w : Word) : (s.fetched w).fault = s.fault := rfl
@[simp] theorem cfg_fetched (w : Word) : (s.fetched w).cfg = s.cfg := rfl
@[simp] theorem draws_fetched (w : Word) : (s.fetched w).draws = s.draws := rfl
@[simp] theorem channel_fetched (w : Word) : (s.fetched w).channel = s.channel := rfl
@[simp] theorem lastOpcode_fetched (w : Word) : (s.fetched w).lastOpcode = some w := rfl
@[simp] theorem getV_fetched (w : Word) (x : RegIx) : (s.fetched w).getV x = s.getV x := rfl
@[simp] theorem stackAt_fetched (w : Word) (k : Fin 16) : (s.fetched w).stackAt k = s.stackAt k := rfl
@[simp] theorem pixel_fetched (w : Word) (r : Fin 32) (c : Fin 64) : (s.fetched w).pixel r c = s.pixel r c := rfl
@[simp] theorem memSize_fetched (w : Word) : (s.fetched w).memSize = s.memSize := rfl

/-! ### skipIf -/

@[simp] theorem v_skipIf (p : Bool) : (s.skipIf p).v = s.v := by cases p <;> rfl
@[simp] theorem i_skipIf (p : Bool) : (s.skipIf p).i = s.i := by cases p <;> rfl
@[simp] theorem pc_skipIf (p : Bool) : (s.skipIf p).pc = if p then s.pc + 2 else s.pc := by cases p <;> rfl
@[simp] theorem sp_skipIf (p : Bool) : (s.skipIf p).sp = s.sp := by cases p <;> rfl
@[simp] theorem stack_skipIf (p : Bool) : (s.skipIf p).stack = s.stack := by cases p <;> rfl
@[simp] theorem gfx_skipIf (p : Bool) : (s.skipIf p).gfx = s.gfx := by cases p <;> rfl
@[simp] theorem mem_skipIf (p : Bool) : (s.skipIf p).mem = s.mem := by cases p <;> rfl
@[simp] theorem running_skipIf (p : Bool) : (s.skipIf p).running = s.running := by cases p <;> rfl
@[simp] theorem cycle_skipIf (p : Bool) : (s.skipIf p).cycle = s.cycle := by cases p <;> rfl
@[simp] theorem fault_skipIf (p : Bool) : (s.skipIf p).fault = s.fault := by cases p <;> rfl
@[simp] theorem cfg_skipIf (p : Bool) : (s.skipIf p).cfg = s.cfg := by cases p <;> rfl
@[simp] theorem draws_skipIf (p : Bool) : (s.skipIf p).draws = s.draws := by cases p <;> rfl
@[simp] theorem channel_skipIf (p : Bool) : (s.skipIf p).channel = s.channel := by cases p <;> rfl
@[simp] theorem lastOpcode_skipIf (p : Bool) : (s.skipIf p).lastOpcode = s.lastOpcode := by cases p <;> rfl
@[simp] theorem getV_skipIf (p : Bool) (x : RegIx) : (s.skipIf p).getV x = s.getV x := by cases p <;> rfl
@[simp] theorem stackAt_skipIf (p : Bool) (k : Fin 16) : (s.skipIf p).stackAt k = s.stackAt k := by cases p <;> rfl
@[simp] theorem pixel_skipIf (p : Bool) (r : Fin 32) (c : Fin 64) : (s.skipIf p).pixel r c = s.pixel r c := by cases p <;> rfl
@[simp] theorem memSize_skipIf (p : Bool) : (s.skipIf p).memSize = s.memSize := by cases p <;> rfl

/-! ### setFlag -/

@[simp] theorem v_setFlag (p : Bool) : (s.setFlag p).v = s.v.set vf (flagByte p) := rfl
@[simp] theorem i_setFlag (p : Bool) : (s.setFlag p).i = s.i := rfl
@[simp] theorem pc_setFlag (p : Bool) : (s.setFlag p).pc = s.pc := rfl
@[simp] theorem sp_setFlag (p : Bool) : (s.setFlag p).sp = s.sp := rfl
@[simp] theorem stack_setFlag (p : Bool) : (s.setFlag p).stack = s.stack := rfl
@[simp] theorem gfx_setFlag (p : Bool) : (s.setFlag p).gfx = s.gfx := rfl
@[simp] theorem mem_setFlag (p : Bool) : (s.setFlag p).mem = s.mem := rfl
@[simp] theorem running_setFlag (p : Bool) : (s.setFlag p).running = s.running := rfl
@[simp] theorem cycle_setFlag (p : Bool) : (s.setFlag p).cycle = s.cycle := rfl
@[simp] theorem fault_setFlag (p : Bool) : (s.setFlag p).fault = s.fault := rfl
@[simp] theorem cfg_setFlag (p : Bool) : (s.setFlag p).cfg = s.cfg := rfl
@[simp] theorem draws_setFlag (p : Bool) : (s.setFlag p).draws = s.draws := rfl
@[simp] theorem channel_setFlag (p : Bool) : (s.setFlag p).channel = s.channel := rfl
@[simp] theorem lastOpcode_setFlag (p : Bool) : (s.setFlag p).lastOpcode = s.lastOpcode := rfl
@[simp] theorem stackAt_setFlag (p : Bool) (k : Fin 16) : (s.setFlag p).stackAt k = s.stackAt k := rfl
@[simp] theorem pixel_setFlag (p : Bool) (r : Fin 32) (c : Fin 64) : (s.setFlag p).pixel r c = s.pixel r c := rfl
@[simp] theorem memSize_setFlag (p : Bool) : (s.setFlag p).memSize = s.memSize := rfl

/-! ### setResultAndFlag -/

@[simp] theorem v_setResultAndFlag (y : RegIx) (b : Byte) (p : Bool) : (s.setResultAndFlag y b p).v = (s.v.set y b).set vf (flagByte p) := rfl
@[simp] theorem i_setResultAndFlag (y : RegIx) (b : Byte) (p : Bool) : (s.setResultAndFlag y b p).i = s.i := rfl
@[simp] theorem pc_setResultAndFlag (y : RegIx) (b : Byte) (p : Bool) : (s.setResultAndFlag y b p).pc = s.pc := rfl
@[simp] theorem sp_setResultAndFlag (y : RegIx) (b : Byte) (p : Bool) : (s.setResultAndFlag y b p).sp = s.sp := rfl
@[simp] theorem stack_setResultAndFlag (y : RegIx) (b : Byte) (p : Bool) : (s.setResultAndFlag y b p).stack = s.stack := rfl
@[simp] theorem gfx_setResultAndFlag (y : RegIx) (b : Byte) (p : Bool) : (s.setResultAndFlag y b p).gfx = s.gfx := rfl
@[simp] theorem mem_setResultAndFlag (y : RegIx) (b : Byte) (p : Bool) : (s.setResultAndFlag y b p).mem = s.mem := rfl
@[simp] theorem running_setResultAndFlag (y : RegIx) (b : Byte) (p : Bool) : (s.setResultAndFlag y b p).running = s.running := rfl
@[simp] theorem cycle_setResultAndFlag (y : RegIx) (b : Byte) (p : Bool) : (s.setResultAndFlag y b p).cycle = s.cycle := rfl
@[simp] theorem fault_setResultAndFlag (y : RegIx) (b : Byte) (p : Bool) : (s.setResultAndFlag y b p).fault = s.fault := rfl
@[simp] theorem cfg_setResultAndFlag (y : RegIx) (b : Byte) (p : Bool) : (s.setResultAndFlag y b p).cfg = s.cfg := rfl
@[simp] theorem draws_setResultAndFlag (y : RegIx) (b : Byte) (p : Bool) : (s.setResultAndFlag y b p).draws = s.draws := rfl
@[simp] theorem channel_setResultAndFlag (y : RegIx) (b : Byte) (p : Bool) : (s.setResultAndFlag y b p).channel = s.channel := rfl
@[simp] theorem lastOpcode_setResultAndFlag (y : RegIx) (b : Byte) (p : Bool) : (s.setResultAndFlag y b p).lastOpcode = s.lastOpcode := rfl
@[simp] theorem stackAt_setResultAndFlag (y : RegIx) (b : Byte) (p : Bool) (k : Fin 16) : (s.setResultAndFlag y b p).stackAt k = s.stackAt k := rfl
@[simp] theorem pixel_setResultAndFlag (y : RegIx) (b : Byte) (p : Bool) (r : Fin 32) (c : Fin 64) : (s.setResultAndFlag y b p).pixel r c = s.pixel r c := rfl
@[simp] theorem memSize_setResultAndFlag (y : RegIx) (b : Byte) (p : Bool) : (s.setResultAndFlag y b p).memSize = s.memSize := rfl

/-! ### retire -/

/-- A step that no fault ended counts one cycle. -/
theorem retire_of_no_fault (h : s.fault = none) : s.retire = s.setCycle (s.cycle + 1) := by
  simp [retire, h]

/-- A step that a fault ended counts none. -/
theorem retire_of_fault (f : Fault) (h : s.fault = some f) : s.retire = s := by
  simp [retire, h]

@[simp] theorem v_retire : s.retire.v = s.v := by
  cases h : s.fault <;> simp [retire, h]
@[simp] theorem i_retire : s.retire.i = s.i := by
  cases h : s.fault <;> simp [retire, h]
@[simp] theorem pc_retire : s.retire.pc = s.pc := by
  cases h : s.fault <;> simp [retire, h]
@[simp] theorem sp_retire : s.retire.sp = s.sp := by
  cases h : s.fault <;> simp [retire, h]
@[simp] theorem stack_retire : s.retire.stack = s.stack := by
  cases h : s.fault <;> simp [retire, h]
@[simp] theorem gfx_retire : s.retire.gfx = s.gfx := by
  cases h : s.fault <;> simp [retire, h]
@[simp] theorem mem_retire : s.retire.mem = s.mem := by
  cases h : s.fault <;> simp [retire, h]
@[simp] theorem running_retire : s.retire.running = s.running := by
  cases h : s.fault <;> simp [retire, h]
@[simp] theorem cycle_retire : s.retire.cycle = if s.fault = none then s.cycle + 1 else s.cycle := by
  cases h : s.fault <;> simp [retire, h]
@[simp] theorem fault_retire : s.retire.fault = s.fault := by
  cases h : s.fault <;> simp [retire, h]
@[simp] theorem cfg_retire : s.retire.cfg = s.cfg := by
  cases h : s.fault <;> simp [retire, h]
@[simp] theorem draws_retire : s.retire.draws = s.draws := by
  cases h : s.fault <;> simp [retire, h]
@[simp] theorem channel_retire : s.retire.channel = s.channel := by
  cases h : s.fault <;> simp [retire, h]
@[simp] theorem lastOpcode_retire : s.retire.lastOpcode = s.lastOpcode := by
  cases h : s.fault <;> simp [retire, h]
@[simp] theorem getV_retire (x : RegIx) : s.retire.getV x = s.getV x := by
  cases h : s.fault <;> simp [retire, h]
@[simp] theorem stackAt_retire (k : Fin 16) : s.retire.stackAt k = s.stackAt k := by
  cases h : s.fault <;> simp [retire, h]
@[simp] theorem pixel_retire (r : Fin 32) (c : Fin 64) : s.retire.pixel r c = s.pixel r c := by
  cases h : s.fault <;> simp [retire, h]
@[simp] theorem memSize_retire : s.retire.memSize = s.memSize := by
  cases h : s.fault <;> simp [retire, h]

end Sys2Proof.Machine.State
end

