-- ==== Sys2Proof/Laws/Ops.lean ====
section
/-! SUPPORT. For each shared operation, everything it can do, stated once: reads, the call stack, faults and reports,
skips, fetch, sprite rows, and the step. -/

namespace Sys2Proof.Machine

namespace State

variable (s : State)

/-! ### Reads (R52) -/

theorem memRead_ok (a : Nat) (h : a < s.memSize) : s.memRead a = .ok (s.mem.read a) := if_pos h

theorem memRead_error (a : Nat) (h : s.memSize ≤ a) : s.memRead a = .error (.memoryOutOfRange a) :=
  if_neg (Nat.not_lt.2 h)

theorem memSize_le : s.memSize ≤ 4096 := by
  unfold memSize memSizeBytes
  split <;> decide

theorem memSize_ge : 4095 ≤ s.memSize := by
  unfold memSize memSizeBytes
  split <;> decide

/-! ### The call stack (R26) -/

theorem push_full (w : Word) (h : s.sp = 16) : s.push w = none := by
  simp [push, h]

/-- A push that succeeds writes the entry at the old `sp` and raises `sp` by one. -/
theorem push_some (w : Word) (h : s.sp.val < 16) :
    s.push w = some ((s.setStackAt ⟨s.sp.val, h⟩ w).setSp ⟨s.sp.val + 1, by omega⟩) := dif_pos h

theorem push_cases (w : Word) :
    (s.sp = 16 ∧ s.push w = none) ∨
      ∃ h : s.sp.val < 16, s.push w = some ((s.setStackAt ⟨s.sp.val, h⟩ w).setSp ⟨s.sp.val + 1, by omega⟩) := by
  by_cases h : s.sp.val < 16
  · exact .inr ⟨h, s.push_some w h⟩
  · exact .inl ⟨Fin.ext (by omega), dif_neg h⟩

theorem pop_empty (h : s.sp = 0) : s.pop = none := by
  simp [pop, h]

/-- A pop that succeeds answers the entry below `sp` and lowers `sp` by one; the entry stays. -/
theorem pop_some (h : s.sp.val ≠ 0) :
    s.pop = some (s.stackAt ⟨s.sp.val - 1, by omega⟩, s.setSp ⟨s.sp.val - 1, by omega⟩) := dif_neg h

theorem pop_cases :
    (s.sp = 0 ∧ s.pop = none) ∨
      ∃ _ : s.sp.val ≠ 0, s.pop = some (s.stackAt ⟨s.sp.val - 1, by omega⟩, s.setSp ⟨s.sp.val - 1, by omega⟩) := by
  by_cases h : s.sp.val = 0
  · exact .inl ⟨Fin.ext h, dif_pos h⟩
  · exact .inr ⟨h, s.pop_some h⟩

/-! ### Faults and reports (R201, R204) -/

theorem raise_eq (f : Fault) : s.raise f = .next ((s.setPc s.ownAddress).latchFault f) := rfl

theorem report_eq (c : Condition) : s.report c = .next (s.emit c) := rfl

/-- Inside a step the own address is where the fetch started: the advance by 2 is undone (R205). -/
@[simp] theorem ownAddress_fetched (op : Word) : (s.fetched op).ownAddress = s.pc := by
  simp [ownAddress]

/-- A fault raised inside a step leaves `pc` where the step found it (R205). -/
theorem setPc_ownAddress_fetched (op : Word) :
    (s.fetched op).setPc (s.fetched op).ownAddress = s.setLastOpcode (some op) := by
  rw [ownAddress_fetched]; rfl

/-! ### Fetch (R100, R207) -/

theorem fetchWord_ok (h : s.pc.toNat + 1 < s.memSize) :
    s.fetchWord = .ok (bigEndianWord (s.mem.read s.pc.toNat) (s.mem.read (s.pc.toNat + 1))) := by
  simp [fetchWord, s.memRead_ok _ h, s.memRead_ok s.pc.toNat (by omega)]

theorem fetchWord_error_first (h : s.memSize ≤ s.pc.toNat) :
    s.fetchWord = .error (.memoryOutOfRange s.pc.toNat) := by
  simp [fetchWord, s.memRead_error _ h]

theorem fetchWord_error_second (h : s.pc.toNat + 1 = s.memSize) :
    s.fetchWord = .error (.memoryOutOfRange (s.pc.toNat + 1)) := by
  simp [fetchWord, s.memRead_ok s.pc.toNat (by omega), s.memRead_error (s.pc.toNat + 1) (by omega)]

/-- What a fetch can answer. -/
theorem fetchWord_cases :
    (s.pc.toNat + 1 < s.memSize ∧
        s.fetchWord = .ok (bigEndianWord (s.mem.read s.pc.toNat) (s.mem.read (s.pc.toNat + 1)))) ∨
      ∃ a, s.memSize ≤ a ∧ s.fetchWord = .error (.memoryOutOfRange a) := by
  rcases Nat.lt_trichotomy (s.pc.toNat + 1) s.memSize with h | h | h
  · exact .inl ⟨h, s.fetchWord_ok h⟩
  · exact .inr ⟨_, by omega, s.fetchWord_error_second h⟩
  · exact .inr ⟨_, by omega, s.fetchWord_error_first (by omega)⟩

/-- The big-endian pair as a number (R14, R51). -/
theorem toNat_bigEndianWord (hi lo : Byte) : (bigEndianWord hi lo).toNat = hi.toNat * 256 + lo.toNat := by
  have := lo.isLt
  simp only [bigEndianWord, BitVec.toNat_append, Nat.shiftLeft_eq]
  rw [show hi.toNat * 2 ^ 8 = 2 ^ 8 * hi.toNat from Nat.mul_comm _ _, ← Nat.two_pow_add_eq_or_of_lt this]
  omega

/-! ### Sprite rows (R54, R162) -/

/-- Rows that all lie in memory are read, one byte each, in order. -/
theorem readRows_ok (a n : Nat) (h : n = 0 ∨ a + n ≤ s.memSize) :
    s.readRows a n = .ok ((List.range n).map fun k => s.mem.read (a + k)) := by
  induction n generalizing a with
  | zero => rfl
  | succ n ih =>
    have h : a + (n + 1) ≤ s.memSize := by omega
    simp only [readRows, s.memRead_ok a (by omega), ih (a + 1) (.inr (by omega)), List.range_succ_eq_map,
      List.map_cons, List.map_map]
    simp [Function.comp_def, Nat.add_assoc, Nat.add_comm 1]

/-- A row out of range is the fault of the first address out of range. -/
theorem readRows_error (a n : Nat) (hn : n ≠ 0) (h : s.memSize < a + n) :
    s.readRows a n = .error (.memoryOutOfRange (max a s.memSize)) := by
  induction n generalizing a with
  | zero => exact absurd rfl hn
  | succ n ih =>
    rcases Nat.lt_or_ge a s.memSize with ha | ha
    · simp only [readRows, s.memRead_ok a ha, ih (a + 1) (by omega) (by omega)]
      rw [Nat.max_eq_right ha, Nat.max_eq_right (Nat.le_of_lt ha)]
    · simp only [readRows, s.memRead_error a ha]
      rw [Nat.max_eq_left ha]

theorem readRows_cases (a n : Nat) :
    ((n = 0 ∨ a + n ≤ s.memSize) ∧ s.readRows a n = .ok ((List.range n).map fun k => s.mem.read (a + k))) ∨
      (n ≠ 0 ∧ s.memSize < a + n ∧ s.readRows a n = .error (.memoryOutOfRange (max a s.memSize))) := by
  by_cases h : n = 0 ∨ a + n ≤ s.memSize
  · exact .inl ⟨h, s.readRows_ok a n h⟩
  · exact .inr ⟨by omega, by omega, s.readRows_error a n (by omega) (by omega)⟩

end State

/-! ### The step (R100) -/

/-- A retired answer is a next state only of a handler's next state. -/
theorem retired_next (r : Result) (t : State) (h : retired r = .next t) : ∃ u, r = .next u ∧ t = u.retire := by
  cases r <;> simp_all [retired]

theorem step_of_fault (s : State) (f : Fault) (h : s.fault = some f) : step s = .next s := by
  simp [step, h, State.haltedStep]

theorem step_of_fetch_error (s : State) (f : Fault) (h : s.fault = none) (hf : s.fetchWord = .error f) :
    step s = .next (s.latchFault f) := by
  simp [step, h, hf, State.fetchFault]

theorem step_of_fetch_ok (s : State) (op : Word) (h : s.fault = none) (hf : s.fetchWord = .ok op) :
    step s = retired (exec (decodeWord op) (s.fetched op)) := by
  simp [step, h, hf]

/-- Everything a step that answers a next state can have done: nothing, because a fault is recorded; a fetch fault; or
the decoded instruction on the fetched state, and the cycle counted. -/
theorem step_cases (s t : State) (h : step s = .next t) :
    (∃ f, s.fault = some f ∧ t = s) ∨
      (s.fault = none ∧ ∃ a, s.memSize ≤ a ∧ s.fetchWord = .error (.memoryOutOfRange a) ∧
        t = s.latchFault (.memoryOutOfRange a)) ∨
      (s.fault = none ∧ s.pc.toNat + 1 < s.memSize ∧
        ∃ op u, s.fetchWord = .ok op ∧ exec (decodeWord op) (s.fetched op) = .next u ∧ t = u.retire) := by
  cases hs : s.fault with
  | some f =>
    rw [step_of_fault s f hs] at h
    exact .inl ⟨f, rfl, (Host.Outcome.next.inj h).symm⟩
  | none =>
    rcases s.fetchWord_cases with ⟨hp, hf⟩ | ⟨a, ha, hf⟩
    · rw [step_of_fetch_ok s _ hs hf] at h
      exact .inr (.inr ⟨rfl, hp, _, (retired_next _ _ h).imp fun u hu => ⟨hf, hu⟩⟩)
    · rw [step_of_fetch_error s _ hs hf] at h
      exact .inr (.inl ⟨rfl, a, ha, hf, (Host.Outcome.next.inj h).symm⟩)

end Sys2Proof.Machine
end

