-- ==== Sys2Proof/Laws/Exec.lean ====
section
/-! SUPPORT. Everything an instruction can do, said once: take a fatal fault, emit a report, or run with neither, memory
and the model's own fields as they were. -/

namespace Sys2Proof.Machine

/-- The fatal faults a handler can take in `s`, each with its cause (R202, R207). -/
inductive HandlerFault (s : State) : Instr → Fault → Prop where
  | ret : s.sp = 0 → HandlerFault s .ret (.stackUnderflow s.ownAddress)
  | call (nnn : Addr) : s.sp = 16 → HandlerFault s (.call nnn) (.stackOverflow s.ownAddress)
  | drw (x y : RegIx) (n : Fin 16) : n.val ≠ 0 → s.memSize < s.i.toNat + n.val →
      HandlerFault s (.drw x y n) (.memoryOutOfRange (max s.i.toNat s.memSize))

/-- The report of a stub, if the instruction is one (R180, R181). -/
inductive StubReport : Instr → Condition → Prop where
  | unknown (i : Instr) : (∀ s, exec i s = s.report (.unknownOpcode (encode i))) →
      StubReport i (.unknownOpcode (encode i))
  | notImplemented (i : Instr) : (∀ s, exec i s = s.report (.notImplemented (encode i))) →
      StubReport i (.notImplemented (encode i))

/-- From `s` to `t` no condition is taken or emitted, memory is as it was, and so are the parameters, the cycle counter
and the opcode shown. -/
structure Quiet (s t : State) : Prop where
  fault : t.fault = s.fault
  channel : t.channel = s.channel
  mem : t.mem = s.mem
  cfg : t.cfg = s.cfg
  cycle : t.cycle = s.cycle
  lastOpcode : t.lastOpcode = s.lastOpcode

theorem execRet_cases (s : State) :
    (HandlerFault s .ret (.stackUnderflow s.ownAddress) ∧ exec .ret s = s.raise (.stackUnderflow s.ownAddress)) ∨
      ∃ _ : s.sp.val ≠ 0, exec .ret s =
        .next ((s.setSp ⟨s.sp.val - 1, by omega⟩).setPc (s.stackAt ⟨s.sp.val - 1, by omega⟩)) := by
  rcases s.pop_cases with ⟨h, e⟩ | ⟨h, e⟩
  · exact .inl ⟨.ret h, by simp only [exec, execRet, e]⟩
  · exact .inr ⟨h, by simp only [exec, execRet, e]⟩

theorem execCall_cases (nnn : Addr) (s : State) :
    (HandlerFault s (.call nnn) (.stackOverflow s.ownAddress) ∧
        exec (.call nnn) s = s.raise (.stackOverflow s.ownAddress)) ∨
      ∃ h : s.sp.val < 16, exec (.call nnn) s =
        .next (((s.setStackAt ⟨s.sp.val, h⟩ s.pc).setSp ⟨s.sp.val + 1, by omega⟩).setPc (targetOf nnn)) := by
  rcases s.push_cases s.pc with ⟨h, e⟩ | ⟨h, e⟩
  · exact .inl ⟨.call nnn h, by simp only [exec, execCall, e]⟩
  · exact .inr ⟨h, by simp only [exec, execCall, e]⟩

/-- The sprite rows of a draw: `n` bytes from `I` on. -/
def spriteRows (s : State) (n : Nat) : List Byte := (List.range n).map fun k => s.mem.read (s.i.toNat + k)

theorem execDrw_cases (x y : RegIx) (n : Fin 16) (s : State) :
    (HandlerFault s (.drw x y n) (.memoryOutOfRange (max s.i.toNat s.memSize)) ∧
        exec (.drw x y n) s = s.raise (.memoryOutOfRange (max s.i.toNat s.memSize))) ∨
      ((n.val = 0 ∨ s.i.toNat + n.val ≤ s.memSize) ∧ exec (.drw x y n) s =
        .next ((s.setGfx (s.drawSprite (s.getV x) (s.getV y) (spriteRows s n.val)).gfx).setFlag
          (s.drawSprite (s.getV x) (s.getV y) (spriteRows s n.val)).collision)) := by
  rcases s.readRows_cases s.i.toNat n.val with ⟨h, e⟩ | ⟨hn, h, e⟩
  · exact .inr ⟨h, by simp only [exec, execDrw, e, spriteRows]⟩
  · exact .inl ⟨.drw x y n hn h, by simp only [exec, execDrw, e]⟩

/-- What an instruction that answers a next state has done. -/
theorem exec_cases (i : Instr) (s t : State) (h : exec i s = .next t) :
    (∃ f, HandlerFault s i f ∧ t = (s.setPc s.ownAddress).latchFault f) ∨
      (∃ c, StubReport i c ∧ t = s.emit c) ∨ Quiet s t := by
  cases i
  case ret =>
    rcases execRet_cases s with ⟨hf, e⟩ | ⟨_, e⟩ <;> rw [e] at h
    · exact .inl ⟨_, hf, (Host.Outcome.next.inj h).symm⟩
    · cases h; exact .inr (.inr ⟨rfl, rfl, rfl, rfl, rfl, rfl⟩)
  case call nnn =>
    rcases execCall_cases nnn s with ⟨hf, e⟩ | ⟨_, e⟩ <;> rw [e] at h
    · exact .inl ⟨_, hf, (Host.Outcome.next.inj h).symm⟩
    · cases h; exact .inr (.inr ⟨rfl, rfl, rfl, rfl, rfl, rfl⟩)
  case drw x y n =>
    rcases execDrw_cases x y n s with ⟨hf, e⟩ | ⟨_, e⟩ <;> rw [e] at h
    · exact .inl ⟨_, hf, (Host.Outcome.next.inj h).symm⟩
    · cases h; exact .inr (.inr ⟨rfl, rfl, rfl, rfl, rfl, rfl⟩)
  case shl x y =>
    simp only [exec, execShl] at h
    split at h
    · cases h
    · cases h; exact .inr (.inr ⟨rfl, rfl, rfl, rfl, rfl, rfl⟩)
  case jp nnn =>
    simp only [exec, execJp] at h
    split at h <;> (cases h; exact .inr (.inr ⟨rfl, rfl, rfl, rfl, rfl, rfl⟩))
  case seImm | sneImm | seReg | sneReg => cases h; exact .inr (.inr ⟨by simp, by simp, by simp, by simp, by simp, by simp⟩)
  case unknown0NNN | unknown8XY8 | unknown8XY9 | unknown8XYA | unknown8XYB | unknown8XYC | unknown8XYD | unknown8XYF
      | unknownFXnn =>
    cases h; exact .inr (.inl ⟨_, .unknown _ fun _ => rfl, rfl⟩)
  case skpStub | sknpStub | notHandledE | ldVxDtStub | ldVxKStub | ldDtVxStub | ldStVxStub | ldBVxStub | ldMemVxStub
      | ldVxMemStub =>
    cases h; exact .inr (.inl ⟨_, .notImplemented _ fun _ => rfl, rfl⟩)
  all_goals (cases h; exact .inr (.inr ⟨rfl, rfl, rfl, rfl, rfl, rfl⟩))

end Sys2Proof.Machine
end

