-- ==== Sys2Proof/Laws/Draw.lean ====
section
/-! SUPPORT. The sprite draw, one bit and one row at a time: what a plotted bit changes, and that a draw is its plots in
order. -/

namespace Sys2Proof.Machine

/-- A replaced pixel reads as the bit put there; every other pixel as before. -/
@[simp] theorem Framebuffer.at_put (g : Framebuffer) (r r' : Fin 32) (c c' : Fin 64) (bit : Bool) :
    (g.put r c bit).at r' c' = if r' = r ∧ c' = c then bit else g.at r' c' := by
  unfold Framebuffer.at Framebuffer.put
  by_cases hr : r' = r
  · subst hr
    by_cases hc : c' = c
    · subst hc; simp
    · have : c.val ≠ c'.val := fun e => hc (Fin.ext e.symm)
      simp [hc, this]
  · have : r.val ≠ r'.val := fun e => hr (Fin.ext e.symm)
    simp [hr, this]

@[simp] theorem Framebuffer.at_clear (r : Fin 32) (c : Fin 64) : Framebuffer.clear.at r c = false := by
  simp [Framebuffer.clear, Framebuffer.at]

/-- Pixels replaced at different places can be replaced in either order. -/
theorem Framebuffer.put_comm (g : Framebuffer) (r r' : Fin 32) (c c' : Fin 64) (bit bit' : Bool)
    (h : ¬(r = r' ∧ c = c')) : (g.put r c bit).put r' c' bit' = (g.put r' c' bit').put r c bit := by
  apply Vector.ext; intro i hi
  apply Vector.ext; intro j hj
  have at_eq (g : Framebuffer) : g[i][j] = g.at ⟨i, hi⟩ ⟨j, hj⟩ := rfl
  rw [at_eq, at_eq]
  simp only [Framebuffer.at_put]
  split <;> split <;> simp_all

/-- R163: after a plot the pixel holds the bit, and every other pixel is as before. -/
@[simp] theorem Canvas.at_plot (d : Canvas) (r r' : Fin 32) (c c' : Fin 64) (bit : Bool) :
    (d.plot r c bit).gfx.at r' c' = if r' = r ∧ c' = c then bit else d.gfx.at r' c' :=
  Framebuffer.at_put d.gfx r r' c c' bit

/-- R163: a plot records a collision exactly when a 1 bit meets a lit pixel. -/
@[simp] theorem Canvas.collision_plot (d : Canvas) (r : Fin 32) (c : Fin 64) (bit : Bool) :
    (d.plot r c bit).collision = (d.collision || (bit && d.gfx.at r c)) := rfl

/-- The plots of sprite rows from `h` on, in the order they are made: row, column, bit. -/
def plotsFrom (x y : Byte) : Nat → List Byte → List (Fin 32 × Fin 64 × Bool)
  | _, [] => []
  | h, row :: rows =>
    ([0, 1, 2, 3, 4, 5, 6, 7].map fun w => (spriteRow y h, spriteCol x w, spriteBit row w)) ++ plotsFrom x y (h + 1) rows

/-- A list of plots made one after another. -/
def Canvas.plotAll (d : Canvas) (ps : List (Fin 32 × Fin 64 × Bool)) : Canvas :=
  ps.foldl (fun d p => d.plot p.1 p.2.1 p.2.2) d

/-- A draw is its plots, one after another. -/
theorem Canvas.drawRows_eq_plotAll (d : Canvas) (x y : Byte) (h : Nat) (rows : List Byte) :
    d.drawRows x y h rows = d.plotAll (plotsFrom x y h rows) := by
  induction rows generalizing d h with
  | nil => rfl
  | cons row rows ih =>
    rw [Canvas.drawRows, ih, plotsFrom, Canvas.plotAll, Canvas.plotAll, List.foldl_append]
    rfl

/-- Which plots a draw makes: bit `w` of each row `h`, at the place R160 gives it. -/
theorem mem_plotsFrom (x y : Byte) (h : Nat) (rows : List Byte) (p : Fin 32 × Fin 64 × Bool) :
    p ∈ plotsFrom x y h rows ↔
      ∃ k w, ∃ hk : k < rows.length, w < 8 ∧ p = (spriteRow y (h + k), spriteCol x w, spriteBit rows[k] w) := by
  induction rows generalizing h with
  | nil => simp [plotsFrom]
  | cons row rows ih =>
    rw [plotsFrom, List.mem_append, ih]
    constructor
    · rintro (hp | ⟨k, w, hk, hw, rfl⟩)
      · obtain ⟨w, hw, rfl⟩ := List.mem_map.1 hp
        refine ⟨0, w, by simp, ?_, rfl⟩
        simp at hw; omega
      · exact ⟨k + 1, w, by simpa using hk, hw, by simp [Nat.add_assoc, Nat.add_comm 1]⟩
    · rintro ⟨k, w, hk, hw, rfl⟩
      cases k with
      | zero =>
        refine .inl (List.mem_map.2 ⟨w, ?_, rfl⟩)
        simp; omega
      | succ k =>
        exact .inr ⟨k, w, by simpa using hk, hw, by simp [Nat.add_assoc, Nat.add_comm 1]⟩

/-- Two plots at the same pixel. -/
def samePixel (p q : Fin 32 × Fin 64 × Bool) : Prop := p.1 = q.1 ∧ p.2.1 = q.2.1

/-- Plots at different pixels: each pixel plotted holds its bit, every other pixel is as before. -/
theorem Canvas.at_plotAll (d : Canvas) (ps : List (Fin 32 × Fin 64 × Bool))
    (hd : ps.Pairwise fun p q => ¬ samePixel p q) (r : Fin 32) (c : Fin 64) :
    (∀ p ∈ ps, p.1 = r → p.2.1 = c → (d.plotAll ps).gfx.at r c = p.2.2) ∧
      ((∀ p ∈ ps, ¬(p.1 = r ∧ p.2.1 = c)) → (d.plotAll ps).gfx.at r c = d.gfx.at r c) := by
  induction ps generalizing d with
  | nil => simp [Canvas.plotAll]
  | cons p ps ih =>
    obtain ⟨hp, hd⟩ := List.pairwise_cons.1 hd
    have ih := ih (d.plot p.1 p.2.1 p.2.2) hd
    change (∀ q ∈ p :: ps, q.1 = r → q.2.1 = c → ((d.plot p.1 p.2.1 p.2.2).plotAll ps).gfx.at r c = q.2.2) ∧
      (_ → ((d.plot p.1 p.2.1 p.2.2).plotAll ps).gfx.at r c = _)
    refine ⟨fun q hq h1 h2 => ?_, fun h => ?_⟩
    · rcases List.mem_cons.1 hq with rfl | hq
      · rw [ih.2]
        · simp [h1, h2]
        · rintro q' hq' ⟨e1, e2⟩
          exact hp q' hq' ⟨h1.trans e1.symm, h2.trans e2.symm⟩
      · exact ih.1 q hq h1 h2
    · rw [ih.2 fun q hq => h q (by simp [hq])]
      have := h p (by simp)
      simp only [Canvas.at_plot, ite_eq_right_iff]
      exact fun e => absurd ⟨e.1.symm, e.2.symm⟩ this

/-- Plots at different pixels: the collision is a 1 bit at a pixel lit before them. -/
theorem Canvas.collision_plotAll (d : Canvas) (ps : List (Fin 32 × Fin 64 × Bool))
    (hd : ps.Pairwise fun p q => ¬ samePixel p q) :
    (d.plotAll ps).collision = true ↔
      d.collision = true ∨ ∃ p ∈ ps, p.2.2 = true ∧ d.gfx.at p.1 p.2.1 = true := by
  induction ps generalizing d with
  | nil => simp [Canvas.plotAll]
  | cons p ps ih =>
    obtain ⟨hp, hd⟩ := List.pairwise_cons.1 hd
    change ((d.plot p.1 p.2.1 p.2.2).plotAll ps).collision = true ↔ _
    rw [ih (d.plot p.1 p.2.1 p.2.2) hd]
    simp only [Canvas.collision_plot, Bool.or_eq_true, Bool.and_eq_true, List.mem_cons, exists_eq_or_imp, or_assoc,
      Canvas.at_plot]
    refine or_congr_right (or_congr_right (exists_congr fun q => and_congr_right fun hq => and_congr_right fun _ => ?_))
    rw [if_neg]
    rintro ⟨e1, e2⟩
    exact hp q hq ⟨e1.symm, e2.symm⟩

end Sys2Proof.Machine
end

