-- ==== Sys2Proof/Laws/Memory.lean ====
section
/-! SUPPORT. Memory: reading after writing, and that every memory operation keeps the canonical form. -/

namespace Sys2Proof.Machine.Memory

theorem read_nil (a : Nat) : Memory.read [] a = unlistedByte := rfl

theorem read_cons (k : Nat) (c : Byte) (m : Memory) (a : Nat) :
    Memory.read ((k, c) :: m) a = if a = k then c else Memory.read m a := rfl

/-- An address below every listed one is unlisted. -/
theorem read_of_lt (m : Memory) (a : Nat) (h : ∀ p ∈ m, a < p.1) : Memory.read m a = unlistedByte := by
  induction m with
  | nil => rfl
  | cons p m ih =>
    have hp := h p (by simp)
    rw [show p = (p.1, p.2) from rfl, read_cons, if_neg (by omega), ih fun q hq => h q (by simp [hq])]

theorem wf_cons (p : Host.Cell) (m : Memory) :
    Memory.wf (p :: m) ↔ (∀ q ∈ m, p.1 < q.1) ∧ p.2 ≠ unlistedByte ∧ Memory.wf m := by
  simp only [Memory.wf, List.pairwise_cons, List.forall_mem_cons]
  tauto

theorem wf_nil : Memory.wf [] := ⟨List.Pairwise.nil, by simp⟩

theorem read_consCell (a : Nat) (b : Byte) (m : Memory) (h : ∀ p ∈ m, a < p.1) (x : Nat) :
    (Memory.consCell a b m).read x = if x = a then b else Memory.read m x := by
  unfold Memory.consCell
  split
  · next hb =>
    split
    · next hx => rw [hx, read_of_lt m a h, hb]
    · rfl
  · rfl

theorem wf_consCell (a : Nat) (b : Byte) (m : Memory) (h : ∀ p ∈ m, a < p.1) (hm : Memory.wf m) :
    (Memory.consCell a b m).wf := by
  unfold Memory.consCell
  split
  · exact hm
  · next hb => exact (wf_cons (a, b) m).2 ⟨h, hb, hm⟩

/-- Every address a written memory lists was listed before or is the one written. -/
theorem mem_write (m : Memory) (a : Nat) (b : Byte) (p : Host.Cell) (h : p ∈ m.write a b) : p ∈ m ∨ p = (a, b) := by
  induction m with
  | nil =>
    simp only [Memory.write, Memory.consCell] at h
    split at h <;> simp_all
  | cons q m ih =>
    simp only [Memory.write, Memory.consCell] at h
    split at h
    · split at h <;> simp_all
      tauto
    · split at h
      · split at h <;> simp_all
        tauto
      · simp only [List.mem_cons] at h ⊢
        rcases h with h | h
        · exact .inl (.inl h)
        · exact (ih h).imp .inr id

/-- A write keeps the canonical form. -/
theorem write_wf (m : Memory) (a : Nat) (b : Byte) (hm : m.wf) : (m.write a b).wf := by
  induction m with
  | nil => exact wf_consCell a b [] (by simp) wf_nil
  | cons q m ih =>
    obtain ⟨hq, hb, hm⟩ := (wf_cons q m).1 hm
    simp only [Memory.write]
    split
    · next h =>
      refine wf_consCell a b _ (fun p hp => ?_) ((wf_cons q m).2 ⟨hq, hb, hm⟩)
      rcases List.mem_cons.1 hp with rfl | hp
      · exact h
      · exact Nat.lt_trans h (hq p hp)
    · split
      · next h => exact wf_consCell a b m (fun p hp => h ▸ hq p hp) hm
      · refine (wf_cons _ _).2 ⟨fun p hp => ?_, hb, ih hm⟩
        rcases mem_write m a b p hp with hp | rfl
        · exact hq p hp
        · show q.1 < a
          omega

/-- A write changes the byte at its address and no other. -/
theorem read_write (m : Memory) (a : Nat) (b : Byte) (hm : m.wf) (x : Nat) :
    (m.write a b).read x = if x = a then b else m.read x := by
  induction m with
  | nil => exact read_consCell a b [] (by simp) x
  | cons q m ih =>
    obtain ⟨hq, hb, hm⟩ := (wf_cons q m).1 hm
    simp only [Memory.write]
    split
    · next h =>
      refine read_consCell a b _ (fun p hp => ?_) x
      rcases List.mem_cons.1 hp with rfl | hp
      · exact h
      · exact Nat.lt_trans h (hq p hp)
    · split
      · next h =>
        rw [read_consCell a b m (fun p hp => h ▸ hq p hp) x, show q = (q.1, q.2) from rfl, read_cons]
        split
        · rfl
        · rw [if_neg (by omega)]
      · next h =>
        rw [show q = (q.1, q.2) from rfl, read_cons, read_cons, ih hm]
        split
        · next hx => rw [if_neg (by omega)]
        · rfl

theorem read_write_same (m : Memory) (a : Nat) (b : Byte) (hm : m.wf) : (m.write a b).read a = b := by
  rw [read_write m a b hm, if_pos rfl]

theorem read_write_other (m : Memory) (a x : Nat) (b : Byte) (hm : m.wf) (h : x ≠ a) :
    (m.write a b).read x = m.read x := by
  rw [read_write m a b hm, if_neg h]

/-- Writing a run of bytes keeps the canonical form. -/
theorem writeBytes_wf (m : Memory) (a : Nat) (bs : List Byte) (hm : m.wf) : (m.writeBytes a bs).wf := by
  induction bs generalizing m a with
  | nil => exact hm
  | cons b bs ih => exact ih (m.write a b) (a + 1) (write_wf m a b hm)

/-- A run of bytes written reads back byte by byte, and every other address as before. -/
theorem read_writeBytes (m : Memory) (a : Nat) (bs : List Byte) (hm : m.wf) (x : Nat) :
    (m.writeBytes a bs).read x = if h : a ≤ x ∧ x < a + bs.length then bs[x - a] else m.read x := by
  induction bs generalizing m a with
  | nil => rw [dif_neg (by simp)]; rfl
  | cons b bs ih =>
    rw [Memory.writeBytes, ih _ _ (write_wf m a b hm), read_write m a b hm]
    by_cases h1 : a + 1 ≤ x ∧ x < a + 1 + bs.length
    · rw [dif_pos h1, dif_pos (by simp; omega)]
      simp only [show x - a = (x - (a + 1)) + 1 by omega, List.getElem_cons_succ]
    · rw [dif_neg h1]
      by_cases h2 : x = a
      · subst h2; simp
      · rw [if_neg h2, dif_neg (by simp; omega)]

/-- The loading port keeps the canonical form. -/
theorem load_wf (s : State) (bytes : List Byte) (offset : Nat) (h : s.mem.wf) : (s.load bytes offset).mem.wf := by
  unfold State.load
  split
  · exact h
  · split
    · exact h
    · exact writeBytes_wf _ _ _ h

/-- The host's reset leaves memory in canonical form. -/
theorem hostReset_wf (s : State) (v : Vector Byte 16) (i : Addr) (image : List Byte) :
    (s.hostReset v i image).mem.wf := writeBytes_wf [] 0 _ wf_nil

/-- Storing a word where the next step fetches keeps the canonical form. -/
theorem storeAtPc_wf (s : State) (w : Word) (h : s.mem.wf) : (s.storeAtPc w).mem.wf := writeBytes_wf _ _ _ h

/-- Reset memory is canonical. -/
theorem reset_wf : State.reset.mem.wf := wf_nil

end Sys2Proof.Machine.Memory
end

