-- ==== Sys2Proof/Laws/PerInstr.lean ====
section
/-! SUPPORT. Statements about every instruction, one lemma per constructor. EncodesItsRow: an instruction's word is
matched by its own row of spec/opcode_table.json (30_encoding.md R86). -/

namespace Sys2Proof.Laws.EncodesItsRow

/-! ### A word of a format and a row with its mask -/

theorem formatA_accepted_F000 (f : Nibble) (a : Addr) (p : Word) (h : formatA f 0 = p) :
    TableRow.accepts ⟨0xF000#16, p⟩ (formatA f a) = true := by
  rw [TableRow.accepts, formatA_and_F000, h, beq_self_eq_true]

theorem formatXK_accepted_F000 (f x : Nibble) (nn : Byte) (p : Word) (h : formatXK f 0 0 = p) :
    TableRow.accepts ⟨0xF000#16, p⟩ (formatXK f x nn) = true := by
  rw [TableRow.accepts, formatXK_and_F000, h, beq_self_eq_true]

theorem formatXK_accepted_F0FF (f x : Nibble) (nn : Byte) (p : Word) (h : formatXK f 0 nn = p) :
    TableRow.accepts ⟨0xF0FF#16, p⟩ (formatXK f x nn) = true := by
  rw [TableRow.accepts, formatXK_and_F0FF, h, beq_self_eq_true]

theorem formatXYN_accepted_F000 (f x y n : Nibble) (p : Word) (h : formatXYN f 0 0 0 = p) :
    TableRow.accepts ⟨0xF000#16, p⟩ (formatXYN f x y n) = true := by
  rw [TableRow.accepts, formatXYN_and_F000, h, beq_self_eq_true]

theorem formatXYN_accepted_F00F (f x y n : Nibble) (p : Word) (h : formatXYN f 0 0 n = p) :
    TableRow.accepts ⟨0xF00F#16, p⟩ (formatXYN f x y n) = true := by
  rw [TableRow.accepts, formatXYN_and_F00F, h, beq_self_eq_true]

/-- The word of the instruction is matched by its row. -/
def Statement (i : Instr) : Prop := (rowOf i).accepts (encode i) = true

theorem cls : Statement .cls := by unfold Statement; decide

theorem ret : Statement .ret := by unfold Statement; decide

theorem unknown0NNN (nnn : Addr) : Statement (.unknown0NNN nnn) :=
  formatA_accepted_F000 _ _ _ (by decide)

theorem jp (nnn : Addr) : Statement (.jp nnn) :=
  formatA_accepted_F000 _ _ _ (by decide)

theorem call (nnn : Addr) : Statement (.call nnn) :=
  formatA_accepted_F000 _ _ _ (by decide)

theorem seImm (x : RegIx) (nn : Byte) : Statement (.seImm x nn) :=
  formatXK_accepted_F000 _ _ _ _ (by decide)

theorem sneImm (x : RegIx) (nn : Byte) : Statement (.sneImm x nn) :=
  formatXK_accepted_F000 _ _ _ _ (by decide)

theorem seReg (x y : RegIx) (ignored : Nibble) : Statement (.seReg x y ignored) :=
  formatXYN_accepted_F000 _ _ _ _ _ (by decide)

theorem ldImm (x : RegIx) (nn : Byte) : Statement (.ldImm x nn) :=
  formatXK_accepted_F000 _ _ _ _ (by decide)

theorem addImm (x : RegIx) (nn : Byte) : Statement (.addImm x nn) :=
  formatXK_accepted_F000 _ _ _ _ (by decide)

theorem ldReg (x y : RegIx) : Statement (.ldReg x y) :=
  formatXYN_accepted_F00F _ _ _ _ _ (by decide)

theorem orReg (x y : RegIx) : Statement (.orReg x y) :=
  formatXYN_accepted_F00F _ _ _ _ _ (by decide)

theorem andReg (x y : RegIx) : Statement (.andReg x y) :=
  formatXYN_accepted_F00F _ _ _ _ _ (by decide)

theorem xorReg (x y : RegIx) : Statement (.xorReg x y) :=
  formatXYN_accepted_F00F _ _ _ _ _ (by decide)

theorem addReg (x y : RegIx) : Statement (.addReg x y) :=
  formatXYN_accepted_F00F _ _ _ _ _ (by decide)

theorem subReg (x y : RegIx) : Statement (.subReg x y) :=
  formatXYN_accepted_F00F _ _ _ _ _ (by decide)

theorem shr (x : RegIx) (ignoredY : Nibble) : Statement (.shr x ignoredY) :=
  formatXYN_accepted_F00F _ _ _ _ _ (by decide)

theorem subnReg (x y : RegIx) : Statement (.subnReg x y) :=
  formatXYN_accepted_F00F _ _ _ _ _ (by decide)

theorem shl (x : RegIx) (ignoredY : Nibble) : Statement (.shl x ignoredY) :=
  formatXYN_accepted_F00F _ _ _ _ _ (by decide)

theorem unknown8XY8 (x y : Nibble) : Statement (.unknown8XY8 x y) :=
  formatXYN_accepted_F00F _ _ _ _ _ (by decide)

theorem unknown8XY9 (x y : Nibble) : Statement (.unknown8XY9 x y) :=
  formatXYN_accepted_F00F _ _ _ _ _ (by decide)

theorem unknown8XYA (x y : Nibble) : Statement (.unknown8XYA x y) :=
  formatXYN_accepted_F00F _ _ _ _ _ (by decide)

theorem unknown8XYB (x y : Nibble) : Statement (.unknown8XYB x y) :=
  formatXYN_accepted_F00F _ _ _ _ _ (by decide)

theorem unknown8XYC (x y : Nibble) : Statement (.unknown8XYC x y) :=
  formatXYN_accepted_F00F _ _ _ _ _ (by decide)

theorem unknown8XYD (x y : Nibble) : Statement (.unknown8XYD x y) :=
  formatXYN_accepted_F00F _ _ _ _ _ (by decide)

theorem unknown8XYF (x y : Nibble) : Statement (.unknown8XYF x y) :=
  formatXYN_accepted_F00F _ _ _ _ _ (by decide)

theorem sneReg (x y : RegIx) (ignored : Nibble) : Statement (.sneReg x y ignored) :=
  formatXYN_accepted_F000 _ _ _ _ _ (by decide)

theorem ldI (nnn : Addr) : Statement (.ldI nnn) :=
  formatA_accepted_F000 _ _ _ (by decide)

theorem jpV0 (nnn : Addr) : Statement (.jpV0 nnn) :=
  formatA_accepted_F000 _ _ _ (by decide)

theorem rnd (x : RegIx) (nn : Byte) : Statement (.rnd x nn) :=
  formatXK_accepted_F000 _ _ _ _ (by decide)

theorem drw (x y : RegIx) (n : Fin 16) : Statement (.drw x y n) :=
  formatXYN_accepted_F000 _ _ _ _ _ (by decide)

theorem skpStub (x : Nibble) : Statement (.skpStub x) :=
  formatXK_accepted_F0FF _ _ _ _ (by decide)

theorem sknpStub (x : Nibble) : Statement (.sknpStub x) :=
  formatXK_accepted_F0FF _ _ _ _ (by decide)

theorem notHandledE (nnn : Addr) : Statement (.notHandledE nnn) :=
  formatA_accepted_F000 _ _ _ (by decide)

theorem addI (x : RegIx) : Statement (.addI x) :=
  formatXK_accepted_F0FF _ _ _ _ (by decide)

theorem ldF (x : RegIx) : Statement (.ldF x) :=
  formatXK_accepted_F0FF _ _ _ _ (by decide)

theorem ldVxDtStub (x : Nibble) : Statement (.ldVxDtStub x) :=
  formatXK_accepted_F0FF _ _ _ _ (by decide)

theorem ldVxKStub (x : Nibble) : Statement (.ldVxKStub x) :=
  formatXK_accepted_F0FF _ _ _ _ (by decide)

theorem ldDtVxStub (x : Nibble) : Statement (.ldDtVxStub x) :=
  formatXK_accepted_F0FF _ _ _ _ (by decide)

theorem ldStVxStub (x : Nibble) : Statement (.ldStVxStub x) :=
  formatXK_accepted_F0FF _ _ _ _ (by decide)

theorem ldBVxStub (x : Nibble) : Statement (.ldBVxStub x) :=
  formatXK_accepted_F0FF _ _ _ _ (by decide)

theorem ldMemVxStub (x : Nibble) : Statement (.ldMemVxStub x) :=
  formatXK_accepted_F0FF _ _ _ _ (by decide)

theorem ldVxMemStub (x : Nibble) : Statement (.ldVxMemStub x) :=
  formatXK_accepted_F0FF _ _ _ _ (by decide)

theorem unknownFXnn (x : Nibble) (nn : Byte) : Statement (.unknownFXnn x nn) :=
  formatXK_accepted_F000 _ _ _ _ (by decide)

end Sys2Proof.Laws.EncodesItsRow
end

