-- ==== Sys2Proof/Laws/Ports.lean ====
section
/-! SUPPORT. What a load that fits leaves in memory, and a sequence of port calls, one call at a time. -/

namespace Sys2Proof.Machine

/-- A load that fits writes its bytes and nothing else. -/
theorem load_eq (s : State) (bytes : List Byte) (offset : Nat) (h : s.fault = none)
    (hf : offset + bytes.length ≤ s.memSize) : s.load bytes offset = s.setMem (s.mem.writeBytes offset bytes) := by
  simp only [State.load, h, if_neg (Nat.not_lt.2 hf)]

/-- Every byte after a load that fits (R55). -/
theorem read_load (s : State) (bytes : List Byte) (offset : Nat) (h : s.fault = none) (hm : s.mem.wf)
    (hf : offset + bytes.length ≤ s.memSize) (a : Nat) :
    (s.load bytes offset).mem.read a = byteAfterLoad s bytes offset a := by
  rw [load_eq s bytes offset h hf, State.mem_setMem, Memory.read_writeBytes _ _ _ hm, byteAfterLoad]
  split
  · next hr => rw [if_pos hr.1, List.getElem?_eq_getElem (by omega)]; rfl
  · next hr =>
    split
    · rw [List.getElem?_eq_none (by omega)]; rfl
    · rfl

theorem portCalls_nil (s : State) : portCalls [] s = .next s := rfl

theorem portCalls_cons_next (c : PortCall) (cs : List PortCall) (s t : State) (h : portCall c s = .next t) :
    portCalls (c :: cs) s = portCalls cs t := by
  simp only [portCalls, portRun, h]

theorem portCalls_cons_refused (c : PortCall) (cs : List PortCall) (s : State) (r : Refusal)
    (h : portCall c s = .refused r) : portCalls (c :: cs) s = portRun (some r) cs s := by
  simp only [portCalls, portRun, h]

/-- Under a refusal mark a reset clears the mark (R230). -/
theorem portRun_marked_reset (r : Refusal) (v : Vector Byte 16) (i : Addr) (m : List Byte) (cs : List PortCall)
    (s : State) : portRun (some r) (.reset v i m :: cs) s = portCalls cs (s.hostReset v i m) := rfl

/-- Under a refusal mark no other call has an effect (R206). -/
theorem portRun_marked_other (r : Refusal) (c : PortCall) (cs : List PortCall) (s : State)
    (h : ∀ v i m, c ≠ .reset v i m) : portRun (some r) (c :: cs) s = portRun (some r) cs s := by
  cases c <;> first | rfl | exact absurd rfl (h _ _ _)

end Sys2Proof.Machine
end

