-- ==== Sys2Proof/Tests/Slice0.lean ====
section
/-! SUPPORT. Tests of the model's author. Expected results are those of spec/95_test_vectors.md, named W1, CF1, A1, M1,
D1, S1, X1 there, or the spec's own encodings (30_encoding.md). Then, for every statement with hypotheses, a witness that
meets them. -/

open Sys2Proof Sys2Proof.Machine

namespace Sys2Proof.Tests

/-! ### Helpers -/

/-- Registers set one after another. -/
def withV (s : State) (vs : List (RegIx × Byte)) : State := vs.foldl (fun s p => s.setV p.1 p.2) s

/-- The reset state with some registers set. -/
def regs (vs : List (RegIx × Byte)) : State := withV State.reset vs

/-- The state after one step that fetches the word, if there is one. -/
def after (w : Nat) (s : State) : Option State :=
  match step (s.withFetchWord 16 w) with
  | .next t => some t
  | .fault _ => none
  | .refused _ => none

/-- Bytes placed in memory. -/
def poke (s : State) (a : Nat) (bytes : List Byte) : State := s.setMem (s.mem.writeBytes a bytes)

/-- Pixels lit. -/
def light (s : State) (ps : List (Fin 32 × Fin 64)) : State :=
  s.setGfx (ps.foldl (fun g p => g.put p.1 p.2 true) s.gfx)

/-- The pixels of a row, as a list. -/
def litInRow (s : State) (r : Fin 32) : List (Fin 64) := (List.finRange 64).filter fun c => s.pixel r c

/-- The reset state with `sp` and one stack entry set. -/
def stacked (sp : Fin 17) (k : Fin 16) (w : Word) : State := (State.reset.setSp sp).setStackAt k w

/-! ### Well-formedness: each check refuses an ill-formed term -/

theorem test_wf_refuses_cls_as_unknown : (Instr.unknown0NNN 0x0E0).wf = false := by decide
theorem test_wf_refuses_ret_as_unknown : (Instr.unknown0NNN 0x0EE).wf = false := by decide
theorem test_wf_refuses_named_E_as_fallback :
    (Instr.notHandledE 0x19E).wf = false ∧ (Instr.notHandledE 0x1A1).wf = false := by decide
theorem test_wf_refuses_named_F_as_fallback :
    ∀ nn ∈ namedFLowBytes, (Instr.unknownFXnn 0x1 nn).wf = false := by decide
theorem test_wf_accepts_fallbacks :
    (Instr.unknown0NNN 0x0E1).wf = true ∧ (Instr.notHandledE 0x19F).wf = true ∧
      (Instr.unknownFXnn 0x1 0x1F).wf = true := by decide

/-! ### Decoding: a word for every constructor, bit by bit from 30_encoding.md R72 and R75 to R79 -/

theorem test_decode_control :
    decodeWord 0b0000000011100000 = .cls ∧ decodeWord 0b0000000011101110 = .ret ∧
    decodeWord 0b0001101010111100 = .jp 0xABC ∧ decodeWord 0b0010010000000001 = .call 0x401 ∧
    decodeWord 0b1011001000001010 = .jpV0 0x20A := by decide

theorem test_decode_skips :
    decodeWord 0b0011001001000010 = .seImm 2 0x42 ∧ decodeWord 0b0100001001000010 = .sneImm 2 0x42 ∧
    decodeWord 0b0101000100100111 = .seReg 1 2 0x7 ∧ decodeWord 0b1001000100100011 = .sneReg 1 2 0x3 := by decide

theorem test_decode_alu :
    decodeWord 0b0110101000111100 = .ldImm 10 0x3C ∧ decodeWord 0b0111000000100000 = .addImm 0 0x20 ∧
    decodeWord 0b1000001000010000 = .ldReg 2 1 ∧ decodeWord 0b1000001000010001 = .orReg 2 1 ∧
    decodeWord 0b1000001000010010 = .andReg 2 1 ∧ decodeWord 0b1000001000010011 = .xorReg 2 1 ∧
    decodeWord 0b1000111100010100 = .addReg 15 1 ∧ decodeWord 0b1000001000010101 = .subReg 2 1 ∧
    decodeWord 0b1000000001010110 = .shr 0 0x5 ∧ decodeWord 0b1000001000010111 = .subnReg 2 1 ∧
    decodeWord 0b1000000100001110 = .shl 1 0x0 := by decide

theorem test_decode_index_and_draw :
    decodeWord 0b1010000100100011 = .ldI 0x123 ∧ decodeWord 0b1100010000001111 = .rnd 4 0x0F ∧
    decodeWord 0b1111001100011110 = .addI 3 ∧ decodeWord 0b1111010100101001 = .ldF 5 ∧
    decodeWord 0b1101000100100101 = .drw 1 2 5 := by decide

theorem test_decode_unknown :
    decodeWord 0b0000000100100011 = .unknown0NNN 0x123 ∧ decodeWord 0b1000101010111000 = .unknown8XY8 0xA 0xB ∧
    decodeWord 0b1000101010111001 = .unknown8XY9 0xA 0xB ∧ decodeWord 0b1000101010111010 = .unknown8XYA 0xA 0xB ∧
    decodeWord 0b1000101010111011 = .unknown8XYB 0xA 0xB ∧ decodeWord 0b1000101010111100 = .unknown8XYC 0xA 0xB ∧
    decodeWord 0b1000101010111101 = .unknown8XYD 0xA 0xB ∧ decodeWord 0b1000101010111111 = .unknown8XYF 0xA 0xB ∧
    decodeWord 0b1111000111111111 = .unknownFXnn 0x1 0xFF := by decide

theorem test_decode_not_implemented :
    decodeWord 0b1110000110011110 = .skpStub 0x1 ∧ decodeWord 0b1110000110100001 = .sknpStub 0x1 ∧
    decodeWord 0b1110000000000000 = .notHandledE 0x000 ∧ decodeWord 0b1111000100000111 = .ldVxDtStub 0x1 ∧
    decodeWord 0b1111000100001010 = .ldVxKStub 0x1 ∧ decodeWord 0b1111000100010101 = .ldDtVxStub 0x1 ∧
    decodeWord 0b1111000100011000 = .ldStVxStub 0x1 ∧ decodeWord 0b1111000100110011 = .ldBVxStub 0x1 ∧
    decodeWord 0b1111000101010101 = .ldMemVxStub 0x1 ∧ decodeWord 0b1111000101100101 = .ldVxMemStub 0x1 := by decide

theorem test_decode_is_big_endian : decode [0x32, 0x42, 0x99] = .ok (.seImm 2 0x42, [0x99]) := by decide
theorem test_decode_refuses_a_missing_byte : decode [0x32] = .error .truncated ∧ decode [] = .error .truncated := by decide
theorem test_decodeTableWord : decodeTableWord 16 0x8F14 = some (.addReg 15 1) := by decide
theorem test_table_has_44_rows : opcodeTable.length = 44 ∧ opcodeTable.Nodup := by decide

/-! ### Control flow (95_test_vectors.md 2.1) -/

theorem test_cls_CF1 : (after 0x00E0 (light State.reset [(0, 0), (31, 63)])).map
    (fun t => (t.pixel 0 0, t.pixel 31 63, t.pc)) = some (false, false, 0x202) := by decide
theorem test_ret_CF2 : (after 0x00EE (stacked 1 0 0x346)).map
    (fun t => (t.pc, t.sp, t.stackAt 0)) = some (0x346, 0, 0x346) := by decide
theorem test_ret_CF3 : (after 0x00EE State.reset).map (fun t => (t.fault, t.pc, t.sp, t.cycle)) =
    some (some (.stackUnderflow 0x200), 0x200, 0, 0) := by decide
theorem test_jp_CF4 : (after 0x1ABC State.reset).map (fun t => (t.pc, t.running)) = some (0xABC, true) := by
  decide
theorem test_jp_CF5 : (after 0x1200 State.reset).map (fun t => (t.pc, t.running, t.cycle, t.channel)) =
    some (0x200, false, 1, []) := by decide
theorem test_call_CF8 : (after 0x2400 (State.reset.setSp 15)).map (fun t => (t.pc, t.sp, t.stackAt 15)) =
    some (0x400, 16, 0x202) := by decide
theorem test_call_CF9 : (after 0x2400 (State.reset.setSp 16)).map (fun t => (t.fault, t.pc, t.sp, t.cycle)) =
    some (some (.stackOverflow 0x200), 0x200, 16, 0) := by decide
theorem test_seImm_CF10_CF11 : (after 0x3242 (regs [(2, 0x42)])).map (·.pc) = some 0x204 ∧
    (after 0x3242 (regs [(2, 0x41)])).map (·.pc) = some 0x202 := by decide
theorem test_sneImm_CF12_CF13 : (after 0x4242 (regs [(2, 0x42)])).map (·.pc) = some 0x202 ∧
    (after 0x4242 (regs [(2, 0x41)])).map (·.pc) = some 0x204 := by decide
theorem test_seReg_CF15_CF16 : (after 0x5120 (regs [(1, 9), (2, 8)])).map (·.pc) = some 0x202 ∧
    (after 0x5127 (regs [(1, 9), (2, 9)])).map (·.pc) = some 0x204 := by decide
theorem test_sneReg_CF17_CF19 : (after 0x9120 (regs [(1, 9), (2, 9)])).map (·.pc) = some 0x202 ∧
    (after 0x9123 (regs [(1, 9), (2, 8)])).map (·.pc) = some 0x204 := by decide
theorem test_jpV0_CF20 : (after 0xB300 (regs [(0, 0x10)])).map (·.pc) = some 0x310 := by decide
theorem test_jpV0_CF21 : (after 0xBFFF (regs [(0, 0xFF)])).map (·.pc) = some 0x10FE := by decide

/-! ### Fetch (CF22 to CF25) -/

theorem test_fetch_CF23 : (after 0 (State.reset.setPc 0xFFF)).map (fun t => (t.fault, t.pc, t.cycle)) =
    some (some (.memoryOutOfRange 0x1000), 0xFFF, 0) := by decide
theorem test_fetch_CF24 : (after 0 { State.reset.setPc 0xFFE with cfg := { defaultParams with memSize := .reference } }).map
    (fun t => (t.fault, t.pc)) = some (some (.memoryOutOfRange 0xFFF), 0xFFE) := by decide
theorem test_fetch_CF25 : (after 0x6005 (State.reset.setPc 0x201)).map (fun t => (t.getV 0, t.pc)) =
    some (5, 0x203) := by decide

/-! ### Register and arithmetic (2.2) -/

theorem test_ldImm_A1 : (after 0x6A3C State.reset).map (·.getV 10) = some 0x3C := by decide
theorem test_addImm_A4 : (after 0x7020 (regs [(0, 0xF0), (15, 7)])).map (fun t => (t.getV 0, t.getV 15)) =
    some (0x10, 7) := by decide
theorem test_ldReg_A5 : (after 0x8010 (regs [(1, 0x70), (15, 5)])).map (fun t => (t.getV 0, t.getV 15)) =
    some (0x70, 5) := by decide
theorem test_orReg_A6 : (after 0x8011 (regs [(0, 0x0F), (1, 0xF0), (15, 5)])).map (fun t => (t.getV 0, t.getV 15)) =
    some (0xFF, 5) := by decide
theorem test_andReg_A7 : (after 0x8012 (regs [(0, 0x3C), (1, 0x0F), (15, 5)])).map (fun t => (t.getV 0, t.getV 15)) =
    some (0x0C, 5) := by decide
theorem test_xorReg_A8 : (after 0x8013 (regs [(0, 0x3C), (1, 0x0F), (15, 5)])).map (fun t => (t.getV 0, t.getV 15)) =
    some (0x33, 5) := by decide
theorem test_addReg_W2_W12 : (after 0x8014 (regs [(0, 200), (1, 100)])).map (fun t => (t.getV 0, t.getV 15)) =
    some (44, 1) ∧ (after 0x8014 (regs [(0, 1), (1, 255)])).map (fun t => (t.getV 0, t.getV 15)) = some (0, 0) ∧
    (after 0x8014 { regs [(0, 1), (1, 255)] with cfg := { defaultParams with carry := .standard } }).map
      (fun t => (t.getV 0, t.getV 15)) = some (0, 1) := by decide
theorem test_addReg_A13_A14 : (after 0x8F14 (regs [(1, 100), (15, 200)])).map (·.getV 15) = some 1 ∧
    (after 0x80F4 (regs [(0, 3), (15, 1)])).map (fun t => (t.getV 0, t.getV 15)) = some (4, 0) := by decide
theorem test_subReg_W5_W13 : (after 0x8015 (regs [(0, 3), (1, 5)])).map (fun t => (t.getV 0, t.getV 15)) =
    some (254, 0) ∧ (after 0x8015 (regs [(0, 7), (1, 7)])).map (fun t => (t.getV 0, t.getV 15)) = some (0, 0) := by
  decide
theorem test_subReg_W4_A17 : (after 0x8015 (regs [(0, 5), (1, 3)])).map (fun t => (t.getV 0, t.getV 15)) =
    some (2, 1) ∧ (after 0x8F15 (regs [(1, 4), (15, 9)])).map (·.getV 15) = some 1 := by decide
theorem test_subnReg_A18_A19 : (after 0x8017 (regs [(0, 3), (1, 5)])).map (fun t => (t.getV 0, t.getV 15)) =
    some (2, 1) ∧ (after 0x8017 (regs [(0, 5), (1, 3)])).map (fun t => (t.getV 0, t.getV 15)) = some (0xFE, 0) := by
  decide
theorem test_shr_A23_A24 : (after 0x8F06 (regs [(15, 3)])).map (·.getV 15) = some 1 ∧
    (after 0x8056 (regs [(0, 0x10), (5, 0xFF)])).map (fun t => (t.getV 0, t.getV 5, t.getV 15)) =
      some (0x08, 0xFF, 0) := by decide
theorem test_shl_A25_A28 : (after 0x800E (regs [(0, 0x81)])).map (fun t => (t.getV 0, t.getV 15)) = some (0x02, 1) ∧
    (after 0x8F0E (regs [(15, 0x81)])).map (·.getV 15) = some 1 := by decide
theorem test_shl_A29_A30 :
    (after 0x800E { regs [(0, 0x7F)] with cfg := { defaultParams with shl := .refuse } }).map
      (fun t => (t.getV 0, t.getV 15)) = some (0xFE, 0) ∧
    after 0x800E { regs [(0, 0x80)] with cfg := { defaultParams with shl := .refuse } } = none := by decide

/-! ### Index and random (2.3) -/

theorem test_ldI_M1 : (after 0xA123 State.reset).map (·.i) = some 0x123 := by decide
theorem test_addI_M3_M4 : (after 0xF31E ((regs [(3, 1)]).setI 0xFE)).map (·.i) = some 0 ∧
    (after 0xF31E { (regs [(3, 1)]).setI 0xFE with cfg := { defaultParams with indexMod := .byteRange } }).map (·.i) =
      some 0xFF := by decide
theorem test_addI_M5_M7 : (after 0xF31E ((regs [(3, 0x10)]).setI 0x300)).map (·.i) = some 0x13 ∧
    (after 0xF31E { (regs [(3, 0x10)]).setI 0x300 with cfg := { defaultParams with indexMod := .addressRange } }).map
      (·.i) = some 0x310 := by decide
theorem test_ldF_M9_M10 : (after 0xF529 (regs [(5, 0x0F)])).map (·.i) = some 0x4B ∧
    (after 0xF529 (regs [(5, 0xFF)])).map (·.i) = some 0x4FB := by decide
theorem test_rnd_M11_M13 : (rndWith 0xAB 4 0x0F State.reset).getV 4 = 0x0B ∧
    (rndWith 0xAB 4 0x00 State.reset).getV 4 = 0x00 ∧ (rndWith 0x5C 4 0xFF State.reset).getV 4 = 0x5C := by decide
theorem test_rnd_completes : (after 0xC40F State.reset).map (fun t => (t.pc, t.cycle)) = some (0x202, 1) := by decide

/-! ### Draw (2.4) -/

theorem test_drw_D3_D6_D11 : (after 0xD011 (light (poke (State.reset.setI 0x300) 0x300 [0x0F])
      [(0, 0), (0, 1), (0, 2), (0, 3), (0, 4), (0, 5), (0, 6), (0, 7)])).map
    (fun t => (litInRow t 0, t.getV 15)) = some ([4, 5, 6, 7], 1) ∧
    (after 0xD010 (light (regs [(15, 1)]) [(0, 0)])).map (fun t => (t.pixel 0 0, t.getV 15)) = some (true, 0) ∧
    (after 0xDF01 (light (poke ((regs [(15, 5)]).setI 0x300) 0x300 [0x80]) [(0, 5)])).map
      (fun t => (t.pixel 0 5, t.getV 15)) = some (true, 1) := by decide
theorem test_drw_D10_D13 : (after 0xD012 (State.reset.setI 0xFFF)).map (fun t => (t.fault, t.pc, t.cycle)) =
    some (some (.memoryOutOfRange 0x1000), 0x200, 0) ∧
    (after 0xD012 (poke ((regs [(0, 0x3E), (1, 0x1F)]).setI 0x300) 0x300 [0xC3, 0x81])).map
      (fun t => (litInRow t 0, litInRow t 31, t.getV 15)) = some ([5, 62], [4, 5, 62, 63], 0) := by decide

/-! ### Stubs (2.5) -/

/-- What a stub's step leaves: `pc`, `cycle`, V1, I and the report (2.5). -/
def stubResult (w : Nat) : Option (Word × Nat × Byte × Addr × List Condition) :=
  (after w ((regs [(1, 3)]).setI 0x55)).map fun t => (t.pc, t.cycle, t.getV 1, t.i, t.channel)

theorem test_unknown_S1_to_S6 : ∀ w ∈ [0x0000, 0x0123, 0x00E1, 0x8008, 0x800C, 0x800F],
    stubResult w = some (0x202, 1, 3, 0x55, [.unknownOpcode (BitVec.ofNat 16 w)]) := by decide
theorem test_unknown_S17_to_S19 : ∀ w ∈ [0xF100, 0xF11F, 0xF1FF],
    stubResult w = some (0x202, 1, 3, 0x55, [.unknownOpcode (BitVec.ofNat 16 w)]) := by decide
theorem test_unknown_8XYn : ∀ w ∈ [0x8AB9, 0x8ABA, 0x8ABB, 0x8ABD],
    stubResult w = some (0x202, 1, 3, 0x55, [.unknownOpcode (BitVec.ofNat 16 w)]) := by decide
theorem test_notImplemented_S7_to_S16 :
    ∀ w ∈ [0xE19E, 0xE1A1, 0xE000, 0xF107, 0xF10A, 0xF115, 0xF118, 0xF133, 0xF155, 0xF165],
      stubResult w = some (0x202, 1, 3, 0x55, [.notImplemented (BitVec.ofNat 16 w)]) := by decide

/-! ### Faults, reset and ports (2.6) -/

/-- The state after CF3. -/
def faulted : State := ((State.reset.withFetchWord 16 0x00EE).latchFault (.stackUnderflow 0x200)).setLastOpcode (some 0x00EE)

theorem test_faulted_is_after_CF3 : after 0x00EE State.reset = some faulted := by decide
theorem test_step_X1 : (match step faulted with | .next t => decide (t = faulted) | _ => false) = true := by decide
theorem test_reset_X2 : (faulted.hostReset (Vector.replicate 16 7) 0x123 [1, 2]).fault = none ∧
    (faulted.hostReset (Vector.replicate 16 7) 0x123 [1, 2]).mem = [(0, 1), (1, 2)] := by decide
theorem test_load_X3 : (State.reset.load [0xAA, 0xBB] 0xFFE).mem = [(0xFFE, 0xAA), (0xFFF, 0xBB)] := by decide
theorem test_load_X4 : (State.reset.load [0xAA, 0xBB] 0xFFF).fault = some (.romLoadOutOfRange 0xFFF 2) ∧
    (State.reset.load [0xAA, 0xBB] 0xFFF).mem = [] := by decide
theorem test_load_X5 : (State.load { State.reset with cfg := { defaultParams with memSize := .reference } } [0xAA] 0xFFF).fault =
    some (.romLoadOutOfRange 0xFFF 1) := by decide
theorem test_step_X6 : (after 0x1200 (State.reset.setRunning false)).map (fun t => (t.pc, t.running)) =
    some (0x200, false) := by decide
theorem test_codes : (Condition.unknownOpcode 0).code = 1 ∧ (Condition.notImplemented 0).code = 2 ∧
    (Fault.stackOverflow 0).code = 3 ∧ (Fault.stackUnderflow 0).code = 4 ∧ (Fault.memoryOutOfRange 0).code = 5 ∧
    (Fault.romLoadOutOfRange 0 0).code = 6 := by decide
theorem test_memory_forgets_unlisted_value : Memory.write (Memory.write [] 5 7) 5 0 = [] := by decide

/-! ### Witnesses: for every statement with hypotheses, a state and operands that meet them, at the ends of each range -/

/-- The reset state with a word where it fetches next. -/
def holding (w : Nat) : State := State.reset.withFetchWord 16 w

/-- The reset parameters with `SHL_MODE = refuse`. -/
def refusing : Config.Params := { defaultParams with shl := .refuse }

theorem test_witness_EncodeThenDecodeIsIdentity :
    (Instr.addReg 15 0).wf = true ∧ (Instr.unknown0NNN 0xFFF).wf = true ∧ (Instr.unknownFXnn 0xF 0x1F).wf = true := by
  decide
theorem test_witness_DecodedRowHasMostFixedBits :
    (⟨0xF000, 0x0000⟩ : TableRow) ∈ opcodeTable ∧ (0x00E0 : Word) &&& 0xF000 = 0x0000 ∧
    (⟨0xF000, 0xE000⟩ : TableRow) ∈ opcodeTable ∧ (0xE19E : Word) &&& 0xF000 = 0xE000 ∧
    (⟨0xF000, 0xF000⟩ : TableRow) ∈ opcodeTable ∧ (0xF11E : Word) &&& 0xF000 = 0xF000 := by decide
theorem test_witness_SkipsIgnoreTheLowNibble : opF 0x512F = 0x5 ∧ opF 0x9120 = 0x9 := by decide
theorem test_witness_StepRunsTheDecodedInstruction : Fetches (holding 0x8014) 0x8014 := by unfold Fetches; decide
theorem test_witness_OutOfRangeReadIsMemoryFault :
    State.reset.memSize ≤ 4096 ∧
    ((State.reset.setPc 0x1000).fault = none ∧ State.reset.memSize ≤ (State.reset.setPc 0x1000).pc.toNat) ∧
    ((State.reset.setPc 0xFFF).fault = none ∧ (State.reset.setPc 0xFFF).pc.toNat + 1 = State.reset.memSize) ∧
    ¬ RowsInMemory (State.reset.setI 0xFFF) 2 := by unfold RowsInMemory; decide
theorem test_witness_FatalFaultIsPreciseAndFinal :
    (State.reset.fault = none ∧ after 0x00EE State.reset = some faulted ∧ faulted.fault = some (.stackUnderflow 0x200)) ∧
    (State.reset.load [0xAA] 4096).fault = some (.romLoadOutOfRange 4096 1) := by decide
theorem test_witness_CycleCountsCompletedSteps :
    State.reset.fault = none ∧ (after 0x6005 State.reset).map (·.fault) = some none ∧
    (after 0x00EE State.reset).map (·.fault) ≠ some none := by decide
theorem test_witness_StepEmitsAtMostOneCondition :
    (after 0x6005 State.reset).map (·.channel) = some [] ∧
    (after 0x8008 State.reset).map (·.channel) = some [.unknownOpcode 0x8008] ∧
    (after 0x00EE State.reset).map (·.channel) = some [.fault (.stackUnderflow 0x200)] := by decide
theorem test_witness_StubWordsReportAndAdvance_unknown :
    (Fetches (holding 0x0000) 0x0000 ∧ UnknownWord 0x0000) ∧ (Fetches (holding 0xF1FF) 0xF1FF ∧ UnknownWord 0xF1FF) := by
  unfold Fetches UnknownWord; decide
theorem test_witness_StubWordsReportAndAdvance_notImplemented :
    (Fetches (holding 0xE000) 0xE000 ∧ NotImplementedWord 0xE000) ∧
    (Fetches (holding 0xF107) 0xF107 ∧ NotImplementedWord 0xF107) := by
  unfold Fetches NotImplementedWord; decide
theorem test_witness_StubWordsReportAndAdvance_other :
    Fetches (holding 0xF11E) 0xF11E ∧ ¬ UnknownWord 0xF11E ∧ ¬ NotImplementedWord 0xF11E ∧
      after 0xF11E State.reset ≠ none := by
  unfold Fetches UnknownWord NotImplementedWord; decide
theorem test_witness_OnlyShiftLeftRefuses :
    (match step { (holding 0x800E).setV 0 0x80 with cfg := refusing } with
      | .refused r => decide (r = .shlRefused)
      | _ => false) = true ∧ ∀ v i m, PortCall.reset v i m ∉ [PortCall.step, .load [0xAA] 0, .readRunning] :=
  ⟨by decide, by simp⟩
theorem test_witness_LoadIsTheOnlyMemoryWriter :
    exec .cls State.reset = .next (State.reset.setGfx Framebuffer.clear) ∧
    portCall .readRunning State.reset = .next State.reset := ⟨rfl, rfl⟩
theorem test_witness_WritersOfEachComponent :
    (after 0x2400 State.reset).map (fun t => (t.sp, t.stackAt 0)) ≠ some (State.reset.sp, State.reset.stackAt 0) ∧
    (after 0x00E0 (light State.reset [(31, 63)])).map (·.pixel 31 63) ≠ some true ∧
    (after 0xA123 State.reset).map (·.i) ≠ some State.reset.i ∧
    (after 0xC000 State.reset).map (·.draws) ≠ some State.reset.draws := by decide
theorem test_witness_WritersOfEachComponent_more :
    (after 0x6E07 State.reset).map (·.getV 14) ≠ some (State.reset.getV 14) ∧
    (after 0x1ABC State.reset).map (·.pc) ≠ some (State.reset.pc + 2) ∧
    (after 0x1200 State.reset).map (·.running) ≠ some State.reset.running ∧
    (after 0x00EE State.reset).map (·.fault) ≠ some State.reset.fault ∧
    (after 0x0000 State.reset).map (·.channel) ≠ some State.reset.channel ∧
    (after 0xE000 State.reset).map (·.channel) ≠ some State.reset.channel := by decide
theorem test_witness_WritersOfTheFlag :
    (after 0x8014 (regs [(0, 200), (1, 100)])).map (·.getV vf) = some 1 ∧ (regs [(0, 200), (1, 100)]).getV vf = 0 ∧
    (after 0x6F07 State.reset).map (·.getV vf) = some 7 := by decide
theorem test_witness_OnlySelfJumpClearsRunning :
    (after 0x1200 State.reset).map (·.running) ≠ some State.reset.running := by decide
theorem test_witness_PixelsReachOnlyTheCollisionFlag :
    (∀ x y n, Instr.ret ≠ .drw x y n) ∧
    (match exec (.drw 0 1 15) State.reset with | .next _ => true | _ => false) = true := ⟨by simp, by decide⟩
theorem test_reset_meets_the_invariant : State.reset.Inv :=
  ⟨by decide, by decide, by decide, by decide, fun _ h => by simp [State.reset] at h, fun _ h => by simp [State.reset] at h⟩
theorem test_witness_StepKeepsInvariant :
    ∃ t, State.reset.Inv ∧ step State.reset = .next t := ⟨_, test_reset_meets_the_invariant, rfl⟩
theorem test_witness_PortCallSequencesKeepInvariant :
    ∃ t, State.reset.Inv ∧ portCalls [.load [0x12, 0x00] 0x200, .step, .readFramebuffer] State.reset = .next t :=
  ⟨_, test_reset_meets_the_invariant, rfl⟩
theorem test_witness_RetPopsTheReturnAddress :
    (State.reset.setSp 1).sp.val = (0 : Fin 16).val + 1 ∧ (State.reset.setSp 16).sp.val = (15 : Fin 16).val + 1 ∧
    State.reset.sp = 0 := by decide
theorem test_witness_JpJumpsAndDetectsItself :
    opF 0x1ABC = 0x1 ∧ Fetches (holding 0x1200) 0x1200 ∧ decodeWord 0x1200 = .jp 0x200 ∧
    (0x200 : Addr).toNat = (holding 0x1200).pc.toNat := by unfold Fetches; decide
theorem test_witness_CallPushesTheReturnAddress :
    opF 0x2400 = 0x2 ∧ (State.reset.setSp 15).sp.val < 16 ∧ (State.reset.setSp 16).sp = 16 := by decide
theorem test_witness_SkipsAdvanceOnTheirCondition :
    opF 0x3242 = 0x3 ∧ opF 0x4242 = 0x4 ∧ opF 0x5127 = 0x5 ∧ opF 0x9123 = 0x9 := by decide
theorem test_witness_JpV0AddsWithoutMasking : opF 0xBFFF = 0xB := by decide
theorem test_witness_RetUndoesCall : (State.reset.setSp 15).sp.val < 16 ∧ State.reset.sp.val < 16 := by decide
theorem test_witness_ImmediateLoadAndAdd : opF 0x6A3C = 0x6 ∧ opF 0x7020 = 0x7 := by decide
theorem test_witness_CopyAndLogicWriteOnlyVx :
    opF 0x8010 = 0x8 ∧ opN 0x8010 = 0x0 ∧ opN 0x8011 = 0x1 ∧ opN 0x8012 = 0x2 ∧ opN 0x8013 = 0x3 := by decide
theorem test_witness_AddRegisterSetsCarryAboveThreshold :
    opF 0x8014 = 0x8 ∧ opN 0x8014 = 0x4 ∧ (0 : RegIx) ≠ vf := by decide
theorem test_witness_SubtractionsSetFlagWhenPositive :
    opF 0x8015 = 0x8 ∧ opN 0x8015 = 0x5 ∧ opN 0x8017 = 0x7 ∧ (0 : RegIx) ≠ vf := by decide
theorem test_witness_ShiftRightMovesLowBitToFlag : opF 0x8006 = 0x8 ∧ opN 0x8006 = 0x6 ∧ (0 : RegIx) ≠ vf := by decide
theorem test_witness_ShiftLeftMovesHighBitToFlag :
    opF 0x800E = 0x8 ∧ opN 0x800E = 0xE ∧ (0 : RegIx) ≠ vf ∧ (regs [(0, 0xFF)]).cfg.shl = .mask ∧
    ((regs [(0, 0x7F)]).getV 0).toNat < 0x80 ∧
    (({ regs [(0, 0x80)] with cfg := refusing } : State).cfg.shl = .refuse ∧ 0x80 ≤ ((regs [(0, 0x80)]).getV 0).toNat) := by
  decide
theorem test_witness_IndexInstructionsWriteOnlyIndex :
    opF 0xA123 = 0xA ∧ (opF 0xF31E = 0xF ∧ opNN 0xF31E = 0x1E) ∧ opF 0xF529 = 0xF ∧ opNN 0xF529 = 0x29 := by decide
theorem test_witness_RandomByteIsMasked : opF 0xC30F = 0xC := by decide
theorem test_witness_DrawOverwritesRectangleAndFlagsCollision :
    opF 0xD125 = 0xD ∧ RowsInMemory (State.reset.setI 0xFF1) 15 ∧ RowsInMemory (State.reset.setI 0xFFF) 0 ∧
    (LandsOn 0x3E 0x1F 14 7 13 5 ∧ ¬ LandsOn 0x3E 0x1F 0 0 0 0) ∧
    (spriteBitAt (poke State.reset 0 [0x80]) 0 0 = true ∧ (light State.reset [(0, 0)]).pixel 0 0 = true ∧
      LandsOn 0 0 0 0 0 0) ∧
    ((1 : Nat) < (2 : Fin 16).val ∧ (State.reset.setI 0xFFF).memSize ≤ (State.reset.setI 0xFFF).i.toNat + 1 ∧
      ∀ k, k < 1 → (State.reset.setI 0xFFF).i.toNat + k < (State.reset.setI 0xFFF).memSize) := by
  unfold RowsInMemory LandsOn; decide
theorem test_witness_DrawReachesEachPixelOnce :
    spriteRow 0xFF 14 = spriteRow 0xFF 14 ∧ spriteCol 0xFF 7 = spriteCol 0xFF 7 ∧ (14 : Nat) < 15 ∧ (7 : Nat) < 8 ∧
    ((0 : Nat), (0 : Nat)) ≠ (14, 7) := by decide
theorem test_witness_SecondDrawLeavesThePixels :
    (0 : RegIx) ≠ vf ∧ (1 : RegIx) ≠ vf ∧ RowsInMemory State.reset 15 := by unfold RowsInMemory; decide
theorem test_witness_LoadCopiesTheBytesOrFaults :
    (State.reset.fault = none ∧ State.reset.mem.wf ∧ 0xFFE + [(0xAA : Byte), 0xBB].length ≤ State.reset.memSize) ∧
    State.reset.memSize < 0xFFF + [(0xAA : Byte), 0xBB].length := by decide
theorem test_witness_FetchSeesEveryLoad :
    State.reset.fault = none ∧ State.reset.mem.wf ∧
    0x1FF + [(0x00 : Byte), 0x60, 0x05, 0x12].length ≤ State.reset.memSize ∧
    (match portCalls [.readRunning, .step] (State.reset.load [0x00, 0x60, 0x05, 0x12] 0x1FF) with
      | .next t => decide (t.fault = none ∧ t.pc.toNat + 1 < t.memSize ∧
          (byteAfterLoad State.reset [0x00, 0x60, 0x05, 0x12] 0x1FF t.pc.toNat,
            byteAfterLoad State.reset [0x00, 0x60, 0x05, 0x12] 0x1FF (t.pc.toNat + 1)) = (0x12, 0x00))
      | _ => false) = true := by decide
theorem test_witness_FetchSeesEveryLoad_calls :
    (∀ b o, PortCall.load b o ∉ [PortCall.readRunning, .step]) ∧
    ∀ v i m, PortCall.reset v i m ∉ [PortCall.readRunning, .step] := by simp
theorem test_witness_ResetLeavesTheStatedValues : 0 < [(0xAA : Byte)].length ∧ 0 < State.reset.memSize := by decide
theorem test_witness_BootPlacesBothImages :
    State.reset.fault = none ∧ State.reset.mem.wf ∧ (List.replicate 0x200 (0xF0 : Byte)).length ≤ 0x200 ∧
    0x200 + (List.replicate 3584 (0x12 : Byte)).length ≤ State.reset.memSize := by
  simp only [List.length_replicate]; decide

end Sys2Proof.Tests
end

section
/-! PROOFS. The parameters (R9) in the reset state and after the host's reset. -/

namespace Sys2Proof.Machine.State

@[simp] theorem cfg_reset : reset.cfg = defaultParams := rfl

@[simp] theorem memSize_reset : reset.memSize = 4096 := rfl

@[simp] theorem cfg_hostReset (s : State) (v : Vector Byte 16) (i : Addr) (image : List Byte) :
    (s.hostReset v i image).cfg = s.cfg := rfl

end Sys2Proof.Machine.State

namespace Sys2Proof.Machine

/-! ### The number each default of R9 stands for -/

theorem carryThreshold_defaultParams : carryThreshold defaultParams.carry = 256 := rfl

theorem shl_defaultParams : defaultParams.shl = .mask := rfl

theorem indexAddMod_defaultParams : indexAddMod defaultParams.indexMod = 255 := rfl

/-- Settles O46: the reset state holds `defaultParams`, and the host's reset copies the parameters it finds. -/
theorem resetKeepsTheParameters : Obligations.ResetKeepsTheParameters := by
  unfold Obligations.ResetKeepsTheParameters
  rw [State.cfg_reset]
  exact ⟨State.memSize_reset, carryThreshold_defaultParams, shl_defaultParams, indexAddMod_defaultParams,
    State.cfg_hostReset⟩

end Sys2Proof.Machine
end

section
/-! PROOFS. What every instruction writes, said once by the shape of its writes; the effect of each is read off. -/

namespace Sys2Proof.Machine

/-! ### The two branches of a jump, a left shift and a draw (R104, R130, R162) -/

theorem execJp_self (nnn : Addr) (s : State) (h : targetOf nnn = s.ownAddress) :
    exec (.jp nnn) s = .next ((s.setRunning false).setPc (targetOf nnn)) := by
  simp only [exec, execJp, if_pos h]

theorem execJp_elsewhere (nnn : Addr) (s : State) (h : targetOf nnn ≠ s.ownAddress) :
    exec (.jp nnn) s = .next (s.setPc (targetOf nnn)) := by
  simp only [exec, execJp, if_neg h]

theorem execShl_refused (x : RegIx) (y : Nibble) (s : State) (h : s.cfg.shl = .refuse ∧ 0x80 ≤ (s.getV x).toNat) :
    exec (.shl x y) s = .refused .shlRefused := if_pos h

theorem execShl_shifts (x : RegIx) (y : Nibble) (s : State) (h : ¬(s.cfg.shl = .refuse ∧ 0x80 ≤ (s.getV x).toNat)) :
    exec (.shl x y) s = .next (s.setResultAndFlag x (s.getV x <<< 1) (shiftedOutHigh (s.getV x))) := if_neg h

theorem execDrw_inMemory (x y : RegIx) (n : Fin 16) (s : State) (h : RowsInMemory s n.val) :
    exec (.drw x y n) s =
      .next ((s.setGfx (s.drawSprite (s.getV x) (s.getV y) (spriteRows s n.val)).gfx).setFlag
        (s.drawSprite (s.getV x) (s.getV y) (spriteRows s n.val)).collision) := by
  simp only [exec, execDrw, s.readRows_ok _ _ h, spriteRows]

theorem execDrw_outOfMemory (x y : RegIx) (n : Fin 16) (s : State) (h : ¬ RowsInMemory s n.val) :
    exec (.drw x y n) s = s.raise (.memoryOutOfRange (max s.i.toNat s.memSize)) := by
  obtain ⟨hn, hi⟩ := not_or.1 h
  simp only [exec, execDrw, s.readRows_error _ _ hn (Nat.not_le.1 hi)]

/-! ### The effect of an instruction -/

/-- The instruction writes register `x` and no flag (R120 to R125, R146). -/
def HasOrdinaryDestination (i : Instr) (x : RegIx) : Prop :=
  (∃ nn, i = .ldImm x nn ∨ i = .addImm x nn ∨ i = .rnd x nn) ∨
    ∃ y, i = .ldReg x y ∨ i = .orReg x y ∨ i = .andReg x y ∨ i = .xorReg x y

/-- The instruction writes `I` (R140, R142, R144). -/
def WritesIndex (i : Instr) : Prop := (∃ nnn, i = .ldI nnn) ∨ (∃ x, i = .addI x) ∨ ∃ x, i = .ldF x

/-- What running the instruction in `s` makes of it, by the components it writes; the values written are left open where
no claim on the components needs them. -/
inductive Effect (s : State) : Instr → State → Prop where
  | fault (i : Instr) (f : Fault) : HandlerFault s i f → Effect s i ((s.setPc s.ownAddress).latchFault f)
  | unknown (i : Instr) : (i.wf = true → UnknownWord (encode i)) → Effect s i (s.emit (.unknownOpcode (encode i)))
  | notImplemented (i : Instr) : (i.wf = true → NotImplementedWord (encode i)) →
      Effect s i (s.emit (.notImplemented (encode i)))
  | cls : Effect s .cls (s.setGfx Framebuffer.clear)
  | ret (n : Fin 17) (k : Fin 16) : Effect s .ret ((s.setSp n).setPc (s.stackAt k))
  | jp (nnn : Addr) : Effect s (.jp nnn) (s.setPc (targetOf nnn))
  | selfJump (nnn : Addr) : targetOf nnn = s.ownAddress →
      Effect s (.jp nnn) ((s.setRunning false).setPc (targetOf nnn))
  | call (nnn : Addr) (k : Fin 16) (n : Fin 17) :
      Effect s (.call nnn) (((s.setStackAt k s.pc).setSp n).setPc (targetOf nnn))
  | jpV0 (nnn : Addr) : Effect s (.jpV0 nnn) (s.setPc (offsetOf (s.getV 0) + targetOf nnn))
  | skip (i : Instr) (p : Bool) : Redirects i → Effect s i (s.skipIf p)
  | register (i : Instr) (x : RegIx) (b : Byte) : HasOrdinaryDestination i x → Effect s i (s.setV x b)
  | random (x : RegIx) (nn b : Byte) (n : Nat) : Effect s (.rnd x nn) ((s.setV x b).setDraws n)
  | flagged (i : Instr) (x : RegIx) (b : Byte) (p : Bool) : HasDestination i x → WritesFlag i →
      Effect s i (s.setResultAndFlag x b p)
  | index (i : Instr) (a : Addr) : WritesIndex i → Effect s i (s.setI a)
  | draw (x y : RegIx) (n : Fin 16) (g : Framebuffer) (p : Bool) : Effect s (.drw x y n) ((s.setGfx g).setFlag p)

/-! ### The words of the stubs (R82) -/

theorem unknownWord_0NNN (nnn : Addr) (h : nnn ∉ named0Words) : UnknownWord (formatA 0x0 nnn) := by
  have ne (w : Word) (hw : opNNN w ∈ named0Words) : formatA 0x0 nnn ≠ w := by
    rintro rfl
    exact h (by simpa using hw)
  exact .inl ⟨by simp, ne _ (by decide), ne _ (by decide)⟩

theorem unknownWord_8XYN (x y n : Nibble) (h : n ∈ ([0x8, 0x9, 0xA, 0xB, 0xC, 0xD, 0xF] : List Nibble)) :
    UnknownWord (formatXYN 0x8 x y n) :=
  .inr (.inl ⟨opF_formatXYN .., (opN_formatXYN ..).symm ▸ h⟩)

theorem unknownWord_FXnn (x : Nibble) (nn : Byte) (h : nn ∉ namedFLowBytes) : UnknownWord (formatXK 0xF x nn) := by
  refine .inr (.inr ⟨opF_formatXK .., ?_⟩)
  rw [opNN_formatXK]
  simp only [namedFLowBytes, notImplementedFBytes, List.mem_cons, not_or] at h ⊢
  tauto

theorem notImplementedWord_FXnn (x : Nibble) (nn : Byte) (h : nn ∈ notImplementedFBytes) :
    NotImplementedWord (formatXK 0xF x nn) :=
  .inr ⟨opF_formatXK .., (opNN_formatXK ..).symm ▸ h⟩

/-- Every instruction that answers a next state has one of the effects. -/
theorem exec_effect (i : Instr) (s t : State) (h : exec i s = .next t) : Effect s i t := by
  cases i
  case ret =>
    rcases execRet_cases s with ⟨hf, e⟩ | ⟨_, e⟩ <;> cases e.symm.trans h
    · exact .fault _ _ hf
    · exact .ret _ _
  case call nnn =>
    rcases execCall_cases nnn s with ⟨hf, e⟩ | ⟨_, e⟩ <;> cases e.symm.trans h
    · exact .fault _ _ hf
    · exact .call _ _ _
  case drw x y n =>
    rcases execDrw_cases x y n s with ⟨hf, e⟩ | ⟨_, e⟩ <;> cases e.symm.trans h
    · exact .fault _ _ hf
    · exact .draw _ _ _ _ _
  case jp nnn =>
    by_cases ht : targetOf nnn = s.ownAddress
    · cases (execJp_self nnn s ht).symm.trans h
      exact .selfJump _ ht
    · cases (execJp_elsewhere nnn s ht).symm.trans h
      exact .jp _
  case shl x y =>
    by_cases hr : s.cfg.shl = .refuse ∧ 0x80 ≤ (s.getV x).toNat
    · cases (execShl_refused x y s hr).symm.trans h
    · cases (execShl_shifts x y s hr).symm.trans h
      exact .flagged _ x _ _ (by simp [HasDestination]) (by simp [WritesFlag])
  case cls => cases h; exact .cls
  case jpV0 nnn => cases h; exact .jpV0 _
  case rnd x nn => cases h; exact .random _ _ _ _
  case seImm | sneImm | seReg | sneReg => cases h; exact .skip _ _ (by simp [Redirects])
  case ldImm x _ | addImm x _ | ldReg x _ | orReg x _ | andReg x _ | xorReg x _ =>
    cases h; exact .register _ x _ (by simp [HasOrdinaryDestination])
  case addReg x _ | subReg x _ | subnReg x _ | shr x _ =>
    cases h; exact .flagged _ x _ _ (by simp [HasDestination]) (by simp [WritesFlag])
  case ldI | addI | ldF => cases h; exact .index _ _ (by simp [WritesIndex])
  case unknown0NNN nnn =>
    cases h; exact .unknown _ fun hw => unknownWord_0NNN nnn (by simpa [Instr.wf] using hw)
  case unknown8XY8 x y | unknown8XY9 x y | unknown8XYA x y | unknown8XYB x y | unknown8XYC x y | unknown8XYD x y
      | unknown8XYF x y =>
    cases h; exact .unknown _ fun _ => unknownWord_8XYN x y _ (by decide)
  case unknownFXnn x nn =>
    cases h; exact .unknown _ fun hw => unknownWord_FXnn x nn (by simpa [Instr.wf] using hw)
  case skpStub | sknpStub => cases h; exact .notImplemented _ fun _ => .inl (opF_formatXK ..)
  case notHandledE => cases h; exact .notImplemented _ fun _ => .inl (opF_formatA ..)
  case ldVxDtStub x | ldVxKStub x | ldDtVxStub x | ldStVxStub x | ldBVxStub x | ldMemVxStub x | ldVxMemStub x =>
    cases h; exact .notImplemented _ fun _ => notImplementedWord_FXnn x _ (by decide)

/-- No effect writes memory, the parameters, the cycle counter or the opcode shown. -/
theorem Effect.unwritten {i : Instr} {s t : State} (h : Effect s i t) :
    t.mem = s.mem ∧ t.cfg = s.cfg ∧ t.cycle = s.cycle ∧ t.lastOpcode = s.lastOpcode := by
  cases h with
  | skip => simp
  | _ => exact ⟨rfl, rfl, rfl, rfl⟩

end Sys2Proof.Machine
end

section
/-! PROOFS. The invariant: what a fault needs and what an instruction does to `pc` and the stack; then the step. -/

namespace Sys2Proof.Machine

/-- An instruction that leaves a fault in a state with none has taken one of its own (R202, R204). -/
theorem exec_fault (i : Instr) (s t : State) (f : Fault) (h : exec i s = .next t) (hs : s.fault = none)
    (ht : t.fault = some f) : HandlerFault s i f ∧ t = (s.setPc s.ownAddress).latchFault f := by
  rcases exec_cases i s t h with ⟨g, hg, rfl⟩ | ⟨c, -, rfl⟩ | q
  · obtain rfl : g = f := by simpa using ht
    exact ⟨hg, rfl⟩
  · simp [hs] at ht
  · simp [q.fault, hs] at ht

/-- A handler's fault has its cause in the state it leaves, `pc` back at the own address (R202, R205). -/
theorem HandlerFault.causedIn {s : State} {i : Instr} {f : Fault} (h : HandlerFault s i f) :
    f.causedIn ((s.setPc s.ownAddress).latchFault f) := by
  cases h with
  | ret h => exact ⟨h, rfl⟩
  | call _ h => exact ⟨h, rfl⟩
  | drw => exact Nat.le_max_right ..

/-- No cause of a fault speaks of the cycle counter. -/
theorem Fault.causedIn_setCycle (f : Fault) (s : State) (n : Nat) : f.causedIn (s.setCycle n) ↔ f.causedIn s := by
  cases f <;> rfl

theorem toNat_targetOf (nnn : Addr) : (targetOf nnn).toNat = nnn.toNat := by
  simp only [targetOf, BitVec.toNat_setWidth]
  omega

theorem toNat_targetOf_le (nnn : Addr) : (targetOf nnn).toNat ≤ 0xFFF :=
  (toNat_targetOf nnn).trans_le (Nat.le_of_lt_succ nnn.isLt)

theorem toNat_add_two_le (w : Word) : (w + 2).toNat ≤ w.toNat + 2 := by
  rw [BitVec.toNat_add]
  exact Nat.mod_le ..

/-- The farthest target of BNNN is 0xFF + 0xFFF, which does not wrap (R24, R110). -/
theorem toNat_offsetOf_add_targetOf_le (b : Byte) (nnn : Addr) : (offsetOf b + targetOf nnn).toNat ≤ 0x10FE := by
  simp only [offsetOf, targetOf, BitVec.toNat_add, BitVec.toNat_setWidth]
  omega

section

variable {i : Instr} {s t : State} (h : Effect s i t) (hpc : s.pc.toNat ≤ s.memSize)
include h hpc

/-- Where an instruction can bring `pc`, from a `pc` inside memory or just past it. -/
theorem Effect.pc_bounded (hown : s.ownAddress.toNat ≤ 0x10FE) (hstack : ∀ k, (s.stackAt k).toNat ≤ s.memSize) :
    t.pc.toNat ≤ 0x10FE := by
  have hsize := s.memSize_le
  have hkeep : s.pc.toNat ≤ 0x10FE := by omega
  cases h with
  | fault => exact hown
  | ret _ k => exact (hstack k).trans (by omega)
  | jp nnn | selfJump nnn | call nnn => exact (toNat_targetOf_le nnn).trans (by decide)
  | jpV0 nnn => exact toNat_offsetOf_add_targetOf_le (s.getV 0) nnn
  | skip _ p =>
    rw [State.pc_skipIf]
    split
    · exact (toNat_add_two_le s.pc).trans (by omega)
    · exact hkeep
  | _ => exact hkeep

/-- Only CALL writes a stack entry, and what it writes is the advanced `pc` (R26, R105). -/
theorem Effect.stack_bounded (hstack : ∀ k, (s.stackAt k).toNat ≤ s.memSize) (k : Fin 16) :
    (t.stackAt k).toNat ≤ s.memSize := by
  cases h with
  | call _ j =>
    simp only [State.stackAt_setPc, State.stackAt_setSp, State.stackAt_setStackAt]
    split
    · exact hpc
    · exact hstack k
  | skip => rw [State.stackAt_skipIf]; exact hstack k
  | _ => exact hstack k

end

namespace State.Inv

/-- Recording a fault that has its cause keeps the invariant. -/
theorem latchFault {s : State} (hs : s.Inv) (f : Fault) (hf : f.causedIn (s.latchFault f)) : (s.latchFault f).Inv where
  memory_canonical := hs.memory_canonical
  memory_in_range := hs.memory_in_range
  pc_bounded := hs.pc_bounded
  stack_bounded := hs.stack_bounded
  fault_caused g hg := by
    obtain rfl : f = g := by simpa using hg
    exact hf
  fault_reported g hg := by
    obtain rfl : f = g := by simpa using hg
    simp

/-- Counting the cycle keeps the invariant. -/
theorem retire {s : State} (hs : s.Inv) : s.retire.Inv := by
  cases hf : s.fault with
  | some f => rwa [s.retire_of_fault f hf]
  | none =>
    rw [s.retire_of_no_fault hf]
    exact { hs with fault_caused := fun f h => (f.causedIn_setCycle s _).2 (hs.fault_caused f h) }

/-- The decoded instruction, run on the state a fetch leaves, keeps the invariant. -/
theorem exec_fetched {s t : State} {i : Instr} {op : Word} (hs : s.Inv) (hf : s.fault = none)
    (hpc : s.pc.toNat + 1 < s.memSize) (h : exec i (s.fetched op) = .next t) : t.Inv := by
  have heff := exec_effect i _ t h
  obtain ⟨hmem, hcfg, -, -⟩ := heff.unwritten
  have hsize : t.memSize = s.memSize := congrArg (fun c : Config.Params => memSizeBytes c.memSize) hcfg
  have hadvanced : (s.fetched op).pc.toNat ≤ (s.fetched op).memSize := (toNat_add_two_le s.pc).trans hpc
  exact {
    memory_canonical := hmem ▸ hs.memory_canonical
    memory_in_range := by rw [hmem, hsize]; exact hs.memory_in_range
    pc_bounded := heff.pc_bounded hadvanced (by simpa using hs.pc_bounded) hs.stack_bounded
    stack_bounded := fun k => hsize ▸ heff.stack_bounded hadvanced hs.stack_bounded k
    fault_caused := fun f ht => by
      obtain ⟨hc, rfl⟩ := exec_fault i _ t f h hf ht
      exact hc.causedIn
    fault_reported := fun f ht => by
      obtain ⟨-, rfl⟩ := exec_fault i _ t f h hf ht
      simp }

end State.Inv

/-- Settles O19: a halted step answers the same state, a fetch fault is latched with its cause, and otherwise the fetch
was inside memory, so the advanced `pc` is in reach of `Effect.pc_bounded` and `Effect.stack_bounded`. -/
theorem stepKeepsInvariant : Obligations.StepKeepsInvariant := by
  intro s t hs h
  rcases step_cases s t h with ⟨f, -, rfl⟩ | ⟨-, a, ha, -, rfl⟩ | ⟨hf, hpc, op, u, -, hu, rfl⟩
  · exact hs
  · exact hs.latchFault (.memoryOutOfRange a) ha
  · exact (hs.exec_fetched hf hpc hu).retire

/-- Settles O20: every clause holds of the reset values, with nothing listed in memory and no fault recorded. -/
theorem resetStateHasInvariant : Obligations.ResetStateHasInvariant where
  memory_canonical := Memory.reset_wf
  memory_in_range := fun _ hp => absurd hp List.not_mem_nil
  pc_bounded := by decide
  stack_bounded := fun k => by simp [State.stackAt, State.reset]
  fault_caused := fun _ hf => nomatch hf
  fault_reported := fun _ hf => nomatch hf

end Sys2Proof.Machine
end

section
/-! PROOFS. Which effects write each component (R21 to R31, R34). -/

namespace Sys2Proof.Machine

theorem HasOrdinaryDestination.hasDestination {i : Instr} {x : RegIx} (h : HasOrdinaryDestination i x) :
    HasDestination i x := h.imp_right .inl

theorem HandlerFault.canFault {s : State} {i : Instr} {f : Fault} (h : HandlerFault s i f) : CanFault i := by
  cases h <;> simp [CanFault]

/-- A fault raised by a handler is taken as R204 and R205 say. -/
theorem takesFault_raised (s : State) (f : Fault) : TakesFault f s ((s.setPc s.ownAddress).latchFault f) := by
  refine ⟨rfl, rfl, rfl, fun _ _ => rfl, fun c hc => ?_⟩
  cases c with
  | fault | pc | channel => simp at hc
  | stack | memory => exact fun _ => rfl
  | pixels => exact fun _ _ => rfl
  | _ => rfl

namespace Effect

variable {i : Instr} {s t : State} (h : Effect s i t)
include h

/-- A handler's fault is taken by an instruction that can take one. -/
theorem takesFault (hf : t.fault ≠ s.fault) : CanFault i ∧ ∃ f, TakesFault f s t := by
  cases h with
  | fault _ f hc => exact ⟨hc.canFault, f, takesFault_raised s f⟩
  | _ => simp at hf

theorem register_writers (x : RegIx) (hx : t.getV x ≠ s.getV x) : HasDestination i x ∨ (x = vf ∧ WritesFlag i) := by
  cases h with
  | register _ y _ hd =>
    obtain rfl : x = y := by_contra fun hne => hx (by simp [hne])
    exact .inl hd.hasDestination
  | random y =>
    obtain rfl : x = y := by_contra fun hne => hx (by simp [hne])
    exact .inl (by simp [HasDestination])
  | flagged _ y _ _ hd hw =>
    by_cases hv : x = vf
    · exact .inr ⟨hv, hw⟩
    · obtain rfl : x = y := by_contra fun hne => hx (by simp [hv, hne])
      exact .inl hd
  | draw =>
    obtain rfl : x = vf := by_contra fun hne => hx (by simp [hne])
    exact .inr ⟨rfl, by simp [WritesFlag]⟩
  | _ => simp at hx

theorem index_writers (hi : t.i ≠ s.i) : WritesIndex i := by
  cases h with
  | index _ _ hw => exact hw
  | _ => simp at hi

theorem pc_writers (hpc : t.pc ≠ s.pc) : Redirects i ∨ (CanFault i ∧ ∃ f, TakesFault f s t) := by
  cases h with
  | fault _ f hc => exact .inr ⟨hc.canFault, f, takesFault_raised s f⟩
  | ret | jp | selfJump | call | jpV0 => simp [Redirects]
  | skip _ _ hr => exact .inl hr
  | _ => simp at hpc

theorem sp_writers (hsp : t.sp ≠ s.sp) : i = .ret ∨ ∃ nnn, i = .call nnn := by
  cases h with
  | ret | call => simp
  | _ => simp at hsp

theorem stack_writers (k : Fin 16) (hk : t.stackAt k ≠ s.stackAt k) : ∃ nnn, i = .call nnn := by
  cases h with
  | call nnn => exact ⟨nnn, rfl⟩
  | _ => simp at hk

theorem pixel_writers (r : Fin 32) (c : Fin 64) (hp : t.pixel r c ≠ s.pixel r c) :
    i = .cls ∨ ∃ x y n, i = .drw x y n := by
  cases h with
  | cls | draw => simp
  | _ => simp at hp

theorem running_writers (hr : t.running ≠ s.running) :
    (∃ nnn, i = .jp nnn ∧ nnn.toNat = (s.pc - 2).toNat) ∧ t.running = false := by
  cases h with
  | selfJump nnn ht => exact ⟨⟨nnn, rfl, by rw [← toNat_targetOf, ht]; rfl⟩, rfl⟩
  | _ => simp at hr

theorem channel_writers (hc : t.channel ≠ s.channel) :
    (CanFault i ∧ ∃ f, TakesFault f s t) ∨
      (t = s.emit (.unknownOpcode (encode i)) ∧ (i.wf = true → UnknownWord (encode i))) ∨
      (t = s.emit (.notImplemented (encode i)) ∧ (i.wf = true → NotImplementedWord (encode i))) := by
  cases h with
  | fault _ f hf => exact .inl ⟨hf.canFault, f, takesFault_raised s f⟩
  | unknown _ hw => exact .inr (.inl ⟨rfl, hw⟩)
  | notImplemented _ hw => exact .inr (.inr ⟨rfl, hw⟩)
  | _ => simp at hc

theorem draws_writers (hd : t.draws ≠ s.draws) : ∃ x nn, i = .rnd x nn := by
  cases h with
  | random x nn => exact ⟨x, nn, rfl⟩
  | _ => simp at hd

/-- A changed VF was written as a flag or as the ordinary destination (R34). -/
theorem flag_writers (hv : t.getV vf ≠ s.getV vf) : WritesFlag i ∨ HasOrdinaryDestination i vf := by
  cases h with
  | register _ y _ hd =>
    obtain rfl : vf = y := by_contra fun hne => hv (by simp [hne])
    exact .inr hd
  | random y =>
    obtain rfl : vf = y := by_contra fun hne => hv (by simp [hne])
    exact .inr (by simp [HasOrdinaryDestination])
  | flagged _ _ _ _ _ hw => exact .inl hw
  | draw => exact .inl (by simp [WritesFlag])
  | _ => simp at hv

end Effect

/-- Settles O15: each clause is the lemma on the writers of its component. -/
theorem writersOfEachComponent : Obligations.WritersOfEachComponent := by
  intro i s t h
  have heff := exec_effect i s t h
  obtain ⟨hmem, hcfg, hcycle, hlast⟩ := heff.unwritten
  exact ⟨heff.register_writers, heff.index_writers, heff.pc_writers, heff.sp_writers,
    fun ⟨k, hk⟩ => heff.stack_writers k hk, fun ⟨r, c, hp⟩ => heff.pixel_writers r c hp, fun a => by rw [hmem],
    heff.running_writers, heff.takesFault, heff.channel_writers, heff.draws_writers, hcfg, hcycle, hlast⟩

/-! ### What a flag writer leaves in VF (R34) -/

theorem flagByte_eq_zero_or_one (p : Bool) : flagByte p = 0 ∨ flagByte p = 1 := by
  cases p <;> simp [flagByte]

/-- A flag writer takes a fault, as a draw can, or ends by writing its flag to VF. -/
theorem exec_writesFlag (i : Instr) (s t : State) (hw : WritesFlag i) (h : exec i s = .next t) :
    (∃ f, TakesFault f s t) ∨ ∃ p, t.getV vf = flagByte p := by
  have flagged (x : RegIx) (b : Byte) (p : Bool) : ∃ q, (s.setResultAndFlag x b p).getV vf = flagByte q :=
    ⟨p, by simp⟩
  rcases hw with ⟨x, y, rfl | rfl | rfl⟩ | ⟨x, y, rfl | rfl⟩ | ⟨x, y, n, rfl⟩
  case inl.inl | inl.inr.inl | inl.inr.inr | inr.inl.inl => cases h; exact .inr (flagged ..)
  case inr.inl.inr =>
    by_cases hr : s.cfg.shl = .refuse ∧ 0x80 ≤ (s.getV x).toNat
    · cases (execShl_refused x y s hr).symm.trans h
    · cases (execShl_shifts x y s hr).symm.trans h
      exact .inr (flagged ..)
  case inr.inr =>
    rcases execDrw_cases x y n s with ⟨-, e⟩ | ⟨-, e⟩ <;> cases e.symm.trans h
    · exact .inl ⟨_, takesFault_raised ..⟩
    · exact .inr ⟨_, (State.getV_setFlag ..).trans (if_pos rfl)⟩

/-- Settles O16: the first clause is `Effect.flag_writers`, the second that a flag is 0 or 1. -/
theorem writersOfTheFlag : Obligations.WritersOfTheFlag := by
  intro i s t h
  refine ⟨(exec_effect i s t h).flag_writers, fun hw => ?_⟩
  rcases exec_writesFlag i s t hw h with hf | ⟨p, hp⟩
  · exact .inr (.inr hf)
  · rw [hp]
    exact (flagByte_eq_zero_or_one p).imp_right .inl

end Sys2Proof.Machine
end

section
/-! PROOFS. No handler reads the cycle counter or `running`, and only the draw reads a pixel (R27, R29, R30). -/

namespace Sys2Proof.Machine

/-! ### The cycle counter, `running` and the pixels replaced -/

namespace State

/-- The cycle counter, `running` and the pixels, each put through a function. -/
def mapUnread (c : Nat → Nat) (r : Bool → Bool) (g : Framebuffer → Framebuffer) (s : State) : State :=
  { s with cycle := c s.cycle, running := r s.running, gfx := g s.gfx }

variable (c : Nat → Nat) (r : Bool → Bool) (g : Framebuffer → Framebuffer) (s : State)

theorem pc_mapUnread : (s.mapUnread c r g).pc = s.pc := rfl

theorem skipIf_mapUnread (p : Bool) : (s.mapUnread c r g).skipIf p = (s.skipIf p).mapUnread c r g := by
  cases p <;> rfl

theorem push_mapUnread (w : Word) : (s.mapUnread c r g).push w = (s.push w).map (mapUnread c r g) := by
  rcases s.push_cases w with ⟨h, e⟩ | ⟨h, e⟩
  · rw [e, push_full (s.mapUnread c r g) w h]; rfl
  · rw [e, push_some (s.mapUnread c r g) w h]; rfl

theorem pop_mapUnread : (s.mapUnread c r g).pop = s.pop.map fun p => (p.1, p.2.mapUnread c r g) := by
  rcases s.pop_cases with ⟨h, e⟩ | ⟨h, e⟩
  · rw [e, pop_empty (s.mapUnread c r g) h]; rfl
  · rw [e, pop_some (s.mapUnread c r g) h]; rfl

end State

/-- A handler commutes with replacing the three: a jump where `running` is left, CLS and the draw where the pixels are. -/
theorem exec_mapUnread (c : Nat → Nat) (r : Bool → Bool) (g : Framebuffer → Framebuffer) (i : Instr) (s : State)
    (hr : (∃ nnn, i = .jp nnn) → r = id) (hg : (i = .cls ∨ ∃ x y n, i = .drw x y n) → g = id) :
    exec i (s.mapUnread c r g) = mapNext (State.mapUnread c r g) (exec i s) := by
  cases i
  case cls => obtain rfl := hg (.inl rfl); rfl
  case drw x y n =>
    obtain rfl := hg (.inr ⟨x, y, n, rfl⟩)
    by_cases h : RowsInMemory s n.val
    · rw [execDrw_inMemory x y n s h, execDrw_inMemory x y n (s.mapUnread c r id) h]; rfl
    · rw [execDrw_outOfMemory x y n s h, execDrw_outOfMemory x y n (s.mapUnread c r id) h]; rfl
  case jp nnn =>
    obtain rfl := hr ⟨nnn, rfl⟩
    by_cases h : targetOf nnn = s.ownAddress
    · rw [execJp_self nnn s h, execJp_self nnn (s.mapUnread c id g) h]; rfl
    · rw [execJp_elsewhere nnn s h, execJp_elsewhere nnn (s.mapUnread c id g) h]; rfl
  case ret =>
    simp only [exec, execRet, State.pop_mapUnread]
    cases s.pop <;> rfl
  case call nnn =>
    simp only [exec, execCall, State.push_mapUnread, State.pc_mapUnread]
    cases s.push s.pc <;> rfl
  case shl x y =>
    by_cases h : s.cfg.shl = .refuse ∧ 0x80 ≤ (s.getV x).toNat
    · rw [execShl_refused x y s h, execShl_refused x y (s.mapUnread c r g) h]; rfl
    · rw [execShl_shifts x y s h, execShl_shifts x y (s.mapUnread c r g) h]; rfl
  case seImm | sneImm | seReg | sneReg => exact congrArg Host.Outcome.next (s.skipIf_mapUnread c r g _)
  all_goals rfl

theorem exec_setCycle (i : Instr) (s : State) (n : Nat) : exec i (s.setCycle n) = mapNext (·.setCycle n) (exec i s) :=
  exec_mapUnread (fun _ => n) id id i s (fun _ => rfl) fun _ => rfl

/-- `running` passes through a handler, but for a jump to itself, which clears it whatever it was (R104). -/
theorem exec_setRunning (i : Instr) (s : State) (b : Bool) :
    ∃ b', exec i (s.setRunning b) = mapNext (·.setRunning b') (exec i s) := by
  by_cases hj : ∃ nnn, i = .jp nnn
  · obtain ⟨nnn, rfl⟩ := hj
    by_cases h : targetOf nnn = s.ownAddress
    · exact ⟨false, by rw [execJp_self nnn s h, execJp_self nnn (s.setRunning b) h]; rfl⟩
    · exact ⟨b, by rw [execJp_elsewhere nnn s h, execJp_elsewhere nnn (s.setRunning b) h]; rfl⟩
  · exact ⟨b, exec_mapUnread id (fun _ => b) id i s (fun h => absurd h hj) fun _ => rfl⟩

/-- The pixels pass through every handler but CLS, which clears them, and the draw (R101). -/
theorem exec_setGfx (i : Instr) (s : State) (g : Framebuffer) (hd : ∀ x y n, i ≠ .drw x y n) :
    ∃ g', exec i (s.setGfx g) = mapNext (·.setGfx g') (exec i s) := by
  by_cases hc : i = .cls
  · exact ⟨Framebuffer.clear, hc ▸ rfl⟩
  · exact ⟨g, exec_mapUnread id id (fun _ => g) i s (fun _ => rfl) fun h =>
      h.elim (absurd · hc) fun ⟨x, y, n, e⟩ => absurd e (hd x y n)⟩

/-! ### The step -/

theorem fetches_of_fetchWord (s : State) (op : Word) (hf : s.fault = none) (hpc : s.pc.toNat + 1 < s.memSize)
    (h : s.fetchWord = .ok op) : Fetches s op := by
  obtain rfl := Except.ok.inj (h.symm.trans (s.fetchWord_ok hpc))
  exact ⟨hf, hpc, State.toNat_bigEndianWord ..⟩

theorem retired_setRunning (b : Bool) (r : Result) :
    retired (mapNext (·.setRunning b) r) = mapNext (·.setRunning b) (retired r) := by
  cases r with
  | next t =>
    cases hf : t.fault with
    | none => simp only [mapNext, retired, State.retire, State.fault_setRunning, hf]; rfl
    | some f => simp only [mapNext, retired, State.retire, State.fault_setRunning, hf]
  | fault | refused => rfl

/-- A step does not test `running` (R29). -/
theorem step_setRunning (s : State) (b : Bool) : ∃ b', step (s.setRunning b) = mapNext (·.setRunning b') (step s) := by
  cases hf : s.fault with
  | some f => exact ⟨b, by rw [step_of_fault s f hf, step_of_fault (s.setRunning b) f hf]; rfl⟩
  | none =>
    cases hw : s.fetchWord with
    | error f => exact ⟨b, by rw [step_of_fetch_error s f hf hw, step_of_fetch_error (s.setRunning b) f hf hw]; rfl⟩
    | ok op =>
      obtain ⟨b', e⟩ := exec_setRunning (decodeWord op) (s.fetched op) b
      refine ⟨b', ?_⟩
      rw [step_of_fetch_ok s op hf hw, step_of_fetch_ok (s.setRunning b) op hf hw, ← retired_setRunning, ← e]
      rfl

/-- Settles O10: a step that completes retires once, a step that faults never; handlers leave `cycle` and commute with
replacing it. -/
theorem cycleCountsCompletedSteps : Obligations.CycleCountsCompletedSteps := by
  refine ⟨fun s t hs h => ?_, exec_setCycle, rfl⟩
  rcases step_cases s t h with ⟨f, hf, rfl⟩ | ⟨-, a, -, -, rfl⟩ | ⟨-, -, op, u, -, hu, rfl⟩
  · simp [hs] at hf
  · simp
  · obtain ⟨-, -, hcycle, -⟩ := (exec_effect _ _ u hu).unwritten
    simp +contextual [hcycle]

/-- Settles O17: `Effect.running_writers` inside a step finds the self-jump, and `step_setRunning` that nothing reads
the flag. -/
theorem onlySelfJumpClearsRunning : Obligations.OnlySelfJumpClearsRunning := by
  refine ⟨fun s t h hr => ?_, step_setRunning, rfl, fun _ _ _ _ => rfl⟩
  rcases step_cases s t h with ⟨f, -, rfl⟩ | ⟨-, a, -, -, rfl⟩ | ⟨hf, hpc, op, u, hw, hu, rfl⟩
  · exact absurd rfl hr
  · exact absurd rfl hr
  · rw [State.running_retire] at hr ⊢
    obtain ⟨⟨nnn, hi, hn⟩, hu'⟩ := (exec_effect _ _ u hu).running_writers hr
    refine ⟨?_, hu', op, nnn, fetches_of_fetchWord s op hf hpc hw, hi, by simpa using hn⟩
    simpa [hu'] using hr

/-- The frame of a draw: the registers but VF agree, and the states differ in nothing but registers and pixels. -/
theorem onlyChanges_flag_pixels {t u : State} (hv : ∀ r, r ≠ vf → u.getV r = t.getV r)
    (h : { t with v := u.v, gfx := u.gfx } = u) : OnlyChanges [vf] [.pixels] t u := by
  refine ⟨fun r hr => hv r (by simpa using hr), fun c hc => ?_⟩
  rw [← h]
  cases c with
  | pixels => simp at hc
  | stack | memory => exact fun _ => rfl
  | _ => rfl

/-- Settles O18: `exec_setGfx`, and for the draw that the pixels reach neither the choice of a fault nor a component
other than the pixels and VF. -/
theorem pixelsReachOnlyTheCollisionFlag : Obligations.PixelsReachOnlyTheCollisionFlag := by
  refine ⟨exec_setGfx, fun x y n s t g h => ?_⟩
  by_cases hrows : RowsInMemory s n.val
  · cases (execDrw_inMemory x y n s hrows).symm.trans h
    exact ⟨_, execDrw_inMemory x y n (s.setGfx g) hrows,
      onlyChanges_flag_pixels (fun r hr => by simp [hr]) rfl⟩
  · cases (execDrw_outOfMemory x y n s hrows).symm.trans h
    exact ⟨_, execDrw_outOfMemory x y n (s.setGfx g) hrows, onlyChanges_flag_pixels (fun _ _ => rfl) rfl⟩

end Sys2Proof.Machine
end

section
/-! PROOFS. The reset values (R37), in the model's reset state and after the host's reset with any open values. -/

namespace Sys2Proof.Machine.State

theorem stackAt_reset (k : Fin 16) : reset.stackAt k = 0 := by simp [stackAt, reset]

theorem pixel_reset (r : Fin 32) (c : Fin 64) : reset.pixel r c = false := Framebuffer.at_clear r c

/-- The host's image is in memory after its reset, as far as memory goes. -/
theorem read_hostReset (s : State) (v : Vector Byte 16) (i : Addr) (image : List Byte) (a : Nat) (h : a < image.length)
    (hm : a < s.memSize) : (s.hostReset v i image).mem.read a = image[a] := by
  have hin : 0 ≤ a ∧ a < 0 + (image.take s.memSize).length := by
    rw [List.length_take]
    omega
  calc (s.hostReset v i image).mem.read a = (image.take s.memSize)[a - 0] :=
        (Memory.read_writeBytes [] 0 (image.take s.memSize) Memory.wf_nil a).trans (dif_pos hin)
    _ = image[a] := List.getElem_take

end Sys2Proof.Machine.State

namespace Sys2Proof.Machine

/-- Settles O43: the host's reset has the open values it was given and agrees with `State.reset` elsewhere. -/
theorem resetLeavesTheStatedValues : Obligations.ResetLeavesTheStatedValues :=
  ⟨fun s v i image => ⟨fun _ => rfl, rfl, s.read_hostReset v i image, rfl, rfl, State.stackAt_reset, State.pixel_reset,
      rfl, rfl, rfl⟩,
    rfl, rfl, State.stackAt_reset, State.pixel_reset, rfl, rfl, rfl⟩

end Sys2Proof.Machine
end

section
/-! PROOFS. Reads outside memory (R52), what leaves memory alone (R56), and what a load leaves in it (R55, R61). -/

namespace Sys2Proof.Machine

/-! ### Reads outside memory (R52, R100) -/

/-- A fetch that leaves memory ends the step with its fault recorded (R100, R204). -/
theorem step_records_fetchFault (s : State) (f : Fault) (h : s.fault = none) (hf : s.fetchWord = .error f) :
    ∃ t, step s = .next t ∧ t.fault = some f :=
  ⟨s.latchFault f, step_of_fetch_error s f h hf, rfl⟩

/-- Settles O8: the two fetch cases are `fetchWord_error_first` and `fetchWord_error_second`, the draw is the fault of the
first row out of range. -/
theorem outOfRangeReadIsMemoryFault : Obligations.OutOfRangeReadIsMemoryFault :=
  ⟨State.memRead_error,
    fun s hs h => step_records_fetchFault s _ hs (s.fetchWord_error_first h),
    fun s hs h => step_records_fetchFault s _ hs (s.fetchWord_error_second h),
    fun x y n s h => ⟨_, execDrw_outOfMemory x y n s h, takesFault_raised s _⟩⟩

/-! ### Memory over a step and over port calls (R56) -/

theorem exec_mem (i : Instr) (s t : State) (h : exec i s = .next t) : t.mem = s.mem :=
  (exec_effect i s t h).unwritten.1

theorem step_mem (s t : State) (h : step s = .next t) : t.mem = s.mem := by
  rcases step_cases s t h with ⟨f, -, rfl⟩ | ⟨-, a, -, -, rfl⟩ | ⟨-, -, op, u, -, hu, rfl⟩
  · rfl
  · rfl
  · rw [State.mem_retire, exec_mem _ _ u hu, State.mem_fetched]

theorem portCall_mem (c : PortCall) (s t : State) (h : portCall c s = .next t)
    (hload : ∀ bytes offset, c ≠ .load bytes offset) (hreset : ∀ v i m, c ≠ .reset v i m) : t.mem = s.mem := by
  cases c with
  | step => exact step_mem s t h
  | load bytes offset => exact absurd rfl (hload bytes offset)
  | reset v i m => exact absurd rfl (hreset v i m)
  | readFramebuffer | readRunning | readDiagnostics => cases h; rfl

/-- Settles O14: an effect of an instruction leaves memory as it was (`Effect.unwritten`), and so does the step around
it. -/
theorem loadIsTheOnlyMemoryWriter : Obligations.LoadIsTheOnlyMemoryWriter :=
  ⟨fun i s t h a => congrArg (·.read a) (exec_mem i s t h),
    fun c s t h hload hreset a => congrArg (·.read a) (portCall_mem c s t h hload hreset)⟩

theorem portCalls_cons_fault (c : PortCall) (cs : List PortCall) (s : State) (f : Fault)
    (h : portCall c s = .fault f) : portCalls (c :: cs) s = .fault f := by
  simp only [portCalls, portRun, h]

/-- A refusal mark stays over calls with no reset among them (R206). -/
theorem portRun_marked_of_no_reset (r : Refusal) (cs : List PortCall) (s : State)
    (h : ∀ v i m, PortCall.reset v i m ∉ cs) : portRun (some r) cs s = .refused r := by
  induction cs with
  | nil => rfl
  | cons c cs ih =>
    rw [portRun_marked_other r c cs s fun v i m e => h v i m (e ▸ List.mem_cons_self)]
    exact ih fun v i m hm => h v i m (List.mem_cons_of_mem c hm)

theorem portCalls_mem (cs : List PortCall) (s t : State) (h : portCalls cs s = .next t)
    (hload : ∀ bytes offset, PortCall.load bytes offset ∉ cs) (hreset : ∀ v i m, PortCall.reset v i m ∉ cs) :
    t.mem = s.mem := by
  induction cs generalizing s with
  | nil => cases h; rfl
  | cons c cs ih =>
    have hload' (bytes offset) := List.ne_and_not_mem_of_not_mem_cons (hload bytes offset)
    have hreset' (v i m) := List.ne_and_not_mem_of_not_mem_cons (hreset v i m)
    cases hc : portCall c s with
    | next u =>
      rw [portCalls_cons_next c cs s u hc] at h
      calc t.mem = u.mem := ih u h (fun b o => (hload' b o).2) fun v i m => (hreset' v i m).2
        _ = s.mem := portCall_mem c s u hc (fun b o => (hload' b o).1.symm) fun v i m => (hreset' v i m).1.symm
    | fault f => cases (portCalls_cons_fault c cs s f hc).symm.trans h
    | refused r =>
      rw [portCalls_cons_refused c cs s r hc, portRun_marked_of_no_reset r cs s fun v i m => (hreset' v i m).2] at h
      cases h

/-! ### The load (R55) -/

/-- A load that does not fit is its fault, recorded and emitted. -/
theorem load_eq_latchFault (s : State) (bytes : List Byte) (offset : Nat) (h : s.fault = none)
    (hf : s.memSize < offset + bytes.length) :
    s.load bytes offset = s.latchFault (.romLoadOutOfRange offset bytes.length) := by
  simp only [State.load, h, if_pos hf]

theorem byteAfterLoad_inside (s : State) (bytes : List Byte) (offset k : Nat) (h : k < bytes.length) :
    byteAfterLoad s bytes offset (offset + k) = bytes[k] := by
  simp [byteAfterLoad, h]

theorem byteAfterLoad_outside (s : State) (bytes : List Byte) (offset a : Nat)
    (h : a < offset ∨ offset + bytes.length ≤ a) : byteAfterLoad s bytes offset a = s.mem.read a := by
  rcases h with h | h
  · exact if_neg (Nat.not_le.2 h)
  · rw [byteAfterLoad, if_pos (Nat.le_of_add_right_le h), List.getElem?_eq_none (Nat.le_sub_of_add_le' h)]
    rfl

theorem onlyChanges_setMem (s : State) (m : Memory) : OnlyChanges [] [.memory] s (s.setMem m) := by
  refine ⟨fun _ _ => rfl, fun c hc => ?_⟩
  cases c with
  | memory => simp at hc
  | stack => exact fun _ => rfl
  | pixels => exact fun _ _ => rfl
  | _ => rfl

theorem onlyChanges_latchFault (s : State) (f : Fault) : OnlyChanges [] [.fault, .channel] s (s.latchFault f) := by
  refine ⟨fun _ _ => rfl, fun c hc => ?_⟩
  cases c with
  | fault | channel => simp at hc
  | stack | memory => exact fun _ => rfl
  | pixels => exact fun _ _ => rfl
  | _ => rfl

/-- Settles O41: a load that fits sets memory, whose bytes `read_load` gives; one that does not is `latchFault`. -/
theorem loadCopiesTheBytesOrFaults : Obligations.LoadCopiesTheBytesOrFaults := by
  refine ⟨fun s bytes offset hs hm hfits => ⟨fun k hk => ?_, fun a ha => ?_, ?_⟩, fun s bytes offset hs hf => ?_⟩
  · rw [read_load s bytes offset hs hm hfits, byteAfterLoad_inside s bytes offset k hk]
  · rw [read_load s bytes offset hs hm hfits, byteAfterLoad_outside s bytes offset a ha]
  · rw [load_eq s bytes offset hs hfits]
    exact onlyChanges_setMem s _
  · rw [load_eq_latchFault s bytes offset hs hf]
    exact ⟨rfl, rfl, onlyChanges_latchFault s _⟩

/-! ### The fetch after a load (R61) -/

/-- With no fault recorded and both bytes inside memory, what the next step fetches is decided by the bytes alone. -/
theorem fetches_iff_bytes (s : State) (op : Word) (hf : s.fault = none) (hpc : s.pc.toNat + 1 < s.memSize) :
    Fetches s op ↔ op.toNat = (s.mem.read s.pc.toNat).toNat * 256 + (s.mem.read (s.pc.toNat + 1)).toNat :=
  ⟨fun ⟨_, _, h⟩ => h, fun h => ⟨hf, hpc, h⟩⟩

/-- Settles O42: the calls leave memory as the load left it (`portCalls_mem`), which `read_load` gives byte by byte. -/
theorem fetchSeesEveryLoad : Obligations.FetchSeesEveryLoad := by
  intro s t bytes offset cs op hs hm hfits hload hreset h ht hpc
  have hread (a : Nat) : t.mem.read a = byteAfterLoad s bytes offset a := by
    rw [portCalls_mem cs _ t h hload hreset, read_load s bytes offset hs hm hfits]
  rw [fetches_iff_bytes t op ht hpc, hread, hread]

end Sys2Proof.Machine
end

section
/-! PROOFS. The encoder and the decoder undo each other: a word's fields by format, then the families of R75 to R79. -/

namespace Sys2Proof

/-! ### A word from the fields it is known to have -/

section

variable {w : Word} {f n : Nibble} {nn : Byte}

theorem formatA_of_opF (hf : opF w = f) : formatA f (opNNN w) = w := hf ▸ formatA_fields w

theorem formatXK_of_opF (hf : opF w = f) : formatXK f (opX w) (opNN w) = w := hf ▸ formatXK_fields w

theorem formatXK_of_opF_opNN (hf : opF w = f) (hn : opNN w = nn) : formatXK f (opX w) nn = w :=
  hn ▸ formatXK_of_opF hf

theorem formatXYN_of_opF (hf : opF w = f) : formatXYN f (opX w) (opY w) (opN w) = w := hf ▸ formatXYN_fields w

theorem formatXYN_of_opF_opN (hf : opF w = f) (hn : opN w = n) : formatXYN f (opX w) (opY w) n = w :=
  hn ▸ formatXYN_of_opF hf

end

theorem opNN_eq_low_byte_of_opNNN (w : Word) : opNN w = (opNNN w).extractLsb' 0 8 := by
  rw [← opNN_formatA (opF w), formatA_fields]

theorem formatA_injective_right (f : Nibble) : Function.Injective (formatA f) := fun a b h => by
  simpa using congrArg opNNN h

/-! ### The families with a second level (R74) -/

variable (w : Word)

theorem decodeWord_family0 (h : opF w = 0x0) : decodeWord w = decodeFamily0 w := by simp [decodeWord, h]

theorem decodeWord_family8 (h : opF w = 0x8) : decodeWord w = decodeFamily8 w := by simp [decodeWord, h]

theorem decodeWord_familyE (h : opF w = 0xE) : decodeWord w = decodeFamilyE w := by simp [decodeWord, h]

theorem decodeWord_familyF (h : opF w = 0xF) : decodeWord w = decodeFamilyF w := by simp [decodeWord, h]

theorem decodeFamily0_fallback (h : w ≠ 0x00E0) (h' : w ≠ 0x00EE) : decodeFamily0 w = .unknown0NNN (opNNN w) :=
  (if_neg h).trans (if_neg h')

theorem decodeFamilyE_fallback (h : opNN w ∉ namedELowBytes) : decodeFamilyE w = .notHandledE (opNNN w) := by
  unfold decodeFamilyE
  split <;> simp_all [namedELowBytes]

theorem decodeFamilyF_fallback (h : opNN w ∉ namedFLowBytes) : decodeFamilyF w = .unknownFXnn (opX w) (opNN w) := by
  unfold decodeFamilyF
  split <;> simp_all [namedFLowBytes]

/-! ### Decoding an encoded instruction -/

/-- A fallback word of family 0x0 is neither CLS nor RET, whose 12-bit fields are the named ones (R76). -/
theorem decodeWord_formatA_0 (nnn : Addr) (h : nnn ∉ named0Words) :
    decodeWord (formatA 0x0 nnn) = .unknown0NNN nnn := by
  have ne (a : Addr) (ha : a ∈ named0Words) : formatA 0x0 nnn ≠ formatA 0x0 a := fun e =>
    h (formatA_injective_right 0x0 e ▸ ha)
  rw [decodeWord_family0 _ (opF_formatA ..), decodeFamily0_fallback _ (ne 0x0E0 (by decide)) (ne 0x0EE (by decide)),
    opNNN_formatA]

theorem decodeWord_formatA_E (nnn : Addr) (h : nnn.extractLsb' 0 8 ∉ namedELowBytes) :
    decodeWord (formatA 0xE nnn) = .notHandledE nnn := by
  rw [decodeWord_familyE _ (opF_formatA ..), decodeFamilyE_fallback _ (by rwa [opNN_formatA]), opNNN_formatA]

theorem decodeWord_formatXK_F (x : Nibble) (nn : Byte) (h : nn ∉ namedFLowBytes) :
    decodeWord (formatXK 0xF x nn) = .unknownFXnn x nn := by
  rw [decodeWord_familyF _ (opF_formatXK ..), decodeFamilyF_fallback _ (by rwa [opNN_formatXK]), opX_formatXK,
    opNN_formatXK]

/-- Settles O1: the fields of a format give its operands back; a fallback term is well-formed when no named row of its
family takes its word. -/
theorem encodeThenDecodeIsIdentity : Obligations.EncodeThenDecodeIsIdentity := by
  intro i h
  cases i
  case cls | ret => rfl
  case jp | call | ldI | jpV0 | seImm | sneImm | ldImm | addImm | rnd | seReg | sneReg | drw =>
    simp [encode, decodeWord]
  case ldReg | orReg | andReg | xorReg | addReg | subReg | shr | subnReg | shl | unknown8XY8 | unknown8XY9 | unknown8XYA
      | unknown8XYB | unknown8XYC | unknown8XYD | unknown8XYF =>
    simp [encode, decodeWord_family8, decodeFamily8]
  case skpStub | sknpStub => simp [encode, decodeWord_familyE, decodeFamilyE]
  case addI | ldF | ldVxDtStub | ldVxKStub | ldDtVxStub | ldStVxStub | ldBVxStub | ldMemVxStub | ldVxMemStub =>
    simp [encode, decodeWord_familyF, decodeFamilyF]
  case unknown0NNN nnn => exact decodeWord_formatA_0 nnn (by simpa [Instr.wf] using h)
  case notHandledE nnn => exact decodeWord_formatA_E nnn (by simpa [Instr.wf] using h)
  case unknownFXnn x nn => exact decodeWord_formatXK_F x nn (by simpa [Instr.wf] using h)

/-! ### Encoding a decoded word -/

variable {w}

theorem decodeFamily0_wf_encode (h : opF w = 0x0) : (decodeFamily0 w).wf = true ∧ encode (decodeFamily0 w) = w := by
  have hw : formatA 0x0 (opNNN w) = w := formatA_of_opF h
  unfold decodeFamily0
  split
  · next e => exact ⟨rfl, e.symm⟩
  split
  · next e => exact ⟨rfl, e.symm⟩
  next hcls hret =>
  have hnamed : opNNN w ∉ named0Words := by
    simp only [named0Words, List.mem_cons, List.not_mem_nil, or_false]
    rintro (e | e) <;> rw [e] at hw
    · exact hcls hw.symm
    · exact hret hw.symm
  exact ⟨by simpa [Instr.wf] using hnamed, hw⟩

theorem decodeFamily8_wf_encode (h : opF w = 0x8) : (decodeFamily8 w).wf = true ∧ encode (decodeFamily8 w) = w := by
  unfold decodeFamily8
  split
  case h_16 =>
    have hn : opN w = 0xF := by
      simp only [imp_false] at *
      bv_omega
    exact ⟨rfl, formatXYN_of_opF_opN h hn⟩
  all_goals next hn => exact ⟨rfl, formatXYN_of_opF_opN h hn⟩

theorem decodeFamilyE_wf_encode (h : opF w = 0xE) : (decodeFamilyE w).wf = true ∧ encode (decodeFamilyE w) = w := by
  unfold decodeFamilyE
  split
  · next hn => exact ⟨rfl, formatXK_of_opF_opNN h hn⟩
  · next hn => exact ⟨rfl, formatXK_of_opF_opNN h hn⟩
  · next hskp hsknp =>
    rw [opNN_eq_low_byte_of_opNNN] at hskp hsknp
    exact ⟨by simp_all [Instr.wf, namedELowBytes], formatA_of_opF h⟩

theorem decodeFamilyF_wf_encode (h : opF w = 0xF) : (decodeFamilyF w).wf = true ∧ encode (decodeFamilyF w) = w := by
  unfold decodeFamilyF
  split
  case h_10 => exact ⟨by simp_all [Instr.wf, namedFLowBytes], formatXK_of_opF h⟩
  all_goals next hn => exact ⟨rfl, formatXK_of_opF_opNN h hn⟩

/-- Settles O2: each branch of the dispatch keeps every field of the word, which is put together from them again. -/
theorem decodeThenEncodeIsIdentity : Obligations.DecodeThenEncodeIsIdentity := by
  intro w
  unfold decodeWord
  split
  case h_1 h => exact decodeFamily0_wf_encode h
  case h_9 h => exact decodeFamily8_wf_encode h
  case h_15 h => exact decodeFamilyE_wf_encode h
  case h_16 =>
    refine decodeFamilyF_wf_encode ?_
    simp only [imp_false] at *
    bv_omega
  case h_2 h | h_3 h | h_11 h | h_12 h => exact ⟨rfl, formatA_of_opF h⟩
  case h_4 h | h_5 h | h_7 h | h_8 h | h_13 h => exact ⟨rfl, formatXK_of_opF h⟩
  case h_6 h | h_10 h | h_14 h => exact ⟨rfl, formatXYN_of_opF h⟩

end Sys2Proof
end

section
/-! PROOFS. The opcode table (R86): the decoder's row is in it, and of the rows that match a word it has the most fixed
bits. -/

namespace Sys2Proof

/-! ### The rows of the table -/

theorem rowOf_mem_opcodeTable (i : Instr) : rowOf i ∈ opcodeTable := by
  cases i <;> (rw [rowOf]; decide)

theorem mask_ge_F000 : ∀ r ∈ opcodeTable, 0xF000 ≤ r.mask.toNat := by decide

open Laws.EncodesItsRow in
theorem rowOf_accepts_encode (i : Instr) : (rowOf i).accepts (encode i) = true := by
  cases i
  case cls | ret => decide
  case unknown0NNN | jp | call | ldI | jpV0 | notHandledE => exact formatA_accepted_F000 _ _ _ (by decide)
  case seImm | sneImm | ldImm | addImm | rnd | unknownFXnn => exact formatXK_accepted_F000 _ _ _ _ (by decide)
  case seReg | sneReg | drw => exact formatXYN_accepted_F000 _ _ _ _ _ (by decide)
  case ldReg | orReg | andReg | xorReg | addReg | subReg | shr | subnReg | shl | unknown8XY8 | unknown8XY9 | unknown8XYA
      | unknown8XYB | unknown8XYC | unknown8XYD | unknown8XYF =>
    exact formatXYN_accepted_F00F _ _ _ _ _ (by decide)
  case skpStub | sknpStub | addI | ldF | ldVxDtStub | ldVxKStub | ldDtVxStub | ldStVxStub | ldBVxStub | ldMemVxStub
      | ldVxMemStub =>
    exact formatXK_accepted_F0FF _ _ _ _ (by decide)

theorem rowOf_decodeWord_matches (w : Word) : w &&& (rowOf (decodeWord w)).mask = (rowOf (decodeWord w)).pattern := by
  have h := rowOf_accepts_encode (decodeWord w)
  rw [(decodeThenEncodeIsIdentity w).2] at h
  exact beq_iff_eq.1 h

/-- Two rows with one mask that match one word are the same row. -/
theorem row_eq_of_mask_eq {w : Word} {r q : TableRow} (hr : w &&& r.mask = r.pattern) (hq : w &&& q.mask = q.pattern)
    (h : r.mask = q.mask) : r = q := by
  cases r
  cases q
  simp_all

/-! ### The fields fixed by a row that matches -/

section

variable {w : Word} {f n : Nibble} {nn : Byte}

theorem opF_of_and_F000 (h : w &&& 0xF000#16 = formatA f 0) : opF w = f := by
  rw [← formatA_fields w, formatA_and_F000] at h
  simpa using congrArg opF h

theorem opF_of_and_F00F (h : w &&& 0xF00F#16 = formatXYN f 0 0 n) : opF w = f := by
  rw [← formatXYN_fields w, formatXYN_and_F00F] at h
  simpa using congrArg opF h

theorem opF_opNN_of_and_F0FF (h : w &&& 0xF0FF#16 = formatXK f 0 nn) : opF w = f ∧ opNN w = nn := by
  rw [← formatXK_fields w, formatXK_and_F0FF] at h
  exact ⟨by simpa using congrArg opF h, by simpa using congrArg opNN h⟩

end

/-! ### The mask of the decoder's row -/

section

variable (w : Word)

/-- The families with one row that no other row overlaps (R75). -/
theorem mask_decodeWord_of_one_row (h8 : opF w ≠ 0x8) (h : opF w ∉ ([0x0, 0xE, 0xF] : List Nibble)) :
    (rowOf (decodeWord w)).mask = 0xF000 := by
  unfold decodeWord
  split
  case h_1 hf | h_15 hf => simp [hf] at h
  case h_9 hf => exact absurd hf h8
  case h_16 =>
    simp only [imp_false, List.mem_cons, List.not_mem_nil, not_or, or_false] at *
    bv_omega
  all_goals rfl

theorem mask_decodeWord_named0 : ∀ nnn ∈ named0Words, (rowOf (decodeWord (formatA 0x0 nnn))).mask = 0xFFFF :=
  List.forall_mem_cons.2 ⟨rfl, List.forall_mem_singleton.2 rfl⟩

theorem mask_decodeFamily8 : (rowOf (decodeFamily8 w)).mask = 0xF00F := by
  unfold decodeFamily8
  split <;> rfl

theorem mask_decodeFamilyE_named (h : opNN w ∈ namedELowBytes) : (rowOf (decodeFamilyE w)).mask = 0xF0FF := by
  unfold decodeFamilyE
  split
  case h_3 => simp_all [namedELowBytes]
  all_goals rfl

theorem mask_decodeFamilyF_named (h : opNN w ∈ namedFLowBytes) : (rowOf (decodeFamilyF w)).mask = 0xF0FF := by
  unfold decodeFamilyF
  split
  case h_10 => simp_all [namedFLowBytes]
  all_goals rfl

/-- A row that matches a word and is no fallback row has the mask of the decoder's row. -/
theorem fallback_or_mask_eq (r : TableRow) (hr : r ∈ opcodeTable) (h : w &&& r.mask = r.pattern) :
    (r.mask = 0xF000 ∧ r.pattern ∈ ([0x0000, 0xE000, 0xF000] : List Word)) ∨
      r.mask = (rowOf (decodeWord w)).mask := by
  simp only [opcodeTable, familyRows, family8Rows, namedRows, List.mem_append, List.mem_map] at hr
  rcases hr with (⟨f, hf, rfl⟩ | ⟨n, -, rfl⟩) | (⟨nnn, hn, rfl⟩ | ⟨nn, hn, rfl⟩) | ⟨nn, hn, rfl⟩
  · obtain rfl := opF_of_and_F000 h
    by_cases hfb : opF w ∈ ([0x0, 0xE, 0xF] : List Nibble)
    · exact .inl ⟨rfl, List.mem_map_of_mem (f := (formatA · 0)) hfb⟩
    · exact .inr (mask_decodeWord_of_one_row w (ne_of_mem_of_not_mem hf (by decide)) hfb).symm
  · rw [decodeWord_family8 w (opF_of_and_F00F h), mask_decodeFamily8]
    exact .inr rfl
  · obtain rfl : w = formatA 0x0 nnn := (BitVec.and_allOnes (x := w)).symm.trans h
    exact .inr (mask_decodeWord_named0 nnn hn).symm
  · obtain ⟨hf, rfl⟩ := opF_opNN_of_and_F0FF h
    rw [decodeWord_familyE w hf, mask_decodeFamilyE_named w hn]
    exact .inr rfl
  · obtain ⟨hf, rfl⟩ := opF_opNN_of_and_F0FF h
    rw [decodeWord_familyF w hf, mask_decodeFamilyF_named w hn]
    exact .inr rfl

end

/-- Settles O3: of the rows that match, one with the decoder's mask is the decoder's row, so another one is a fallback
row, whose mask is the least of the table. -/
theorem decodedRowHasMostFixedBits : Obligations.DecodedRowHasMostFixedBits := by
  intro w
  have hmem := rowOf_mem_opcodeTable (decodeWord w)
  have hmatch := rowOf_decodeWord_matches w
  refine ⟨hmem, hmatch, fun r hr h hne => ?_⟩
  have hmask : r.mask ≠ (rowOf (decodeWord w)).mask := fun e => hne (row_eq_of_mask_eq h hmatch e)
  obtain ⟨hm, hp⟩ := (fallback_or_mask_eq w r hr h).resolve_right hmask
  refine ⟨hm, hp, lt_of_le_of_ne ?_ fun e => hmask (BitVec.eq_of_toNat_eq e)⟩
  rw [hm]
  exact mask_ge_F000 _ hmem

end Sys2Proof
end

section
/-! PROOFS. The words of the stubs (R82), the bytes of a word (R70), and the nibble the register skips ignore (R80). -/

namespace Sys2Proof.Machine

/-! ### The stubs on the words of R82 -/

/-- The UnknownOpcode stub reports the word itself: the term it gets is what the word decodes to (R180). -/
theorem exec_unknownWord (w : Word) (s : State) (h : UnknownWord w) :
    exec (decodeWord w) s = s.report (.unknownOpcode w) := by
  have hstub : exec (decodeWord w) s = unknownOpcode (decodeWord w) s := by
    rcases h with ⟨hf, hcls, hret⟩ | ⟨hf, hn⟩ | ⟨hf, hn, h1E, h29⟩
    · rw [decodeWord_family0 w hf, decodeFamily0_fallback w hcls hret]
      rfl
    · simp only [List.mem_cons, List.not_mem_nil, or_false] at hn
      rw [decodeWord_family8 w hf]
      rcases hn with hn | hn | hn | hn | hn | hn | hn <;> simp only [decodeFamily8, hn] <;> rfl
    · rw [decodeWord_familyF w hf, decodeFamilyF_fallback w]
      · rfl
      · simp only [notImplementedFBytes, namedFLowBytes, List.mem_cons, not_or] at hn ⊢
        tauto
  rw [hstub, unknownOpcode, (decodeThenEncodeIsIdentity w).2]

/-- The NotImplemented stub reports the word itself (R181). -/
theorem exec_notImplementedWord (w : Word) (s : State) (h : NotImplementedWord w) :
    exec (decodeWord w) s = s.report (.notImplemented w) := by
  have hstub : exec (decodeWord w) s = notImplemented (decodeWord w) s := by
    rcases h with hf | ⟨hf, hn⟩
    · rw [decodeWord_familyE w hf, decodeFamilyE]
      split <;> rfl
    · simp only [notImplementedFBytes, List.mem_cons, List.not_mem_nil, or_false] at hn
      rw [decodeWord_familyF w hf]
      rcases hn with hn | hn | hn | hn | hn | hn | hn <;> simp only [decodeFamilyF, hn] <;> rfl
  rw [hstub, notImplemented, (decodeThenEncodeIsIdentity w).2]

/-! ### The step of a fetched word (R100) -/

theorem bigEndianWord_eq_ofNat (hi lo : Byte) : bigEndianWord hi lo = BitVec.ofNat 16 (hi.toNat * 256 + lo.toNat) := by
  rw [← State.toNat_bigEndianWord, BitVec.ofNat_toNat, BitVec.setWidth_eq]

theorem fetchWord_of_fetches (s : State) (op : Word) (h : Fetches s op) : s.fetchWord = .ok op := by
  obtain ⟨-, hpc, hop⟩ := h
  rw [s.fetchWord_ok hpc, bigEndianWord_eq_ofNat, ← hop, BitVec.ofNat_toNat, BitVec.setWidth_eq]

theorem step_of_fetches (s : State) (op : Word) (h : Fetches s op) :
    step s = retired (exec (decodeWord op) (s.fetched op)) :=
  step_of_fetch_ok s op h.1 (fetchWord_of_fetches s op h)

/-- A report ends a step that then counts its cycle (R201). -/
theorem retired_report (s : State) (c : Condition) (h : s.fault = none) :
    retired (s.report c) = .next ((s.emit c).setCycle (s.cycle + 1)) :=
  congrArg Host.Outcome.next ((s.emit c).retire_of_no_fault h)

/-- Settles O12: the stubs report the word, `retired_report` is the step around them, and any other word that reports
would be a word of R82 by `Effect.channel_writers`. -/
theorem stubWordsReportAndAdvance : Obligations.StubWordsReportAndAdvance := by
  intro s op hfetch
  rw [step_of_fetches s op hfetch]
  refine ⟨fun h => ?_, fun h => ?_, fun hu hn t ht => ?_⟩
  · rw [exec_unknownWord op _ h]
    exact retired_report _ _ hfetch.1
  · rw [exec_notImplementedWord op _ h]
    exact retired_report _ _ hfetch.1
  · obtain ⟨u, hx, rfl⟩ := retired_next _ t ht
    obtain ⟨hwf, henc⟩ := decodeThenEncodeIsIdentity op
    rw [State.channel_retire]
    refine or_iff_not_imp_left.2 fun hc => ?_
    rcases (exec_effect _ _ u hx).channel_writers hc with ⟨-, f, -, -, hf, -⟩ | ⟨-, hw⟩ | ⟨-, hw⟩
    · exact ⟨f, hf⟩
    · exact absurd (henc ▸ hw hwf) hu
    · exact absurd (henc ▸ hw hwf) hn

/-! ### Sample words, bytes and the ignored nibble -/

/-- Settles O4: each word is computed. -/
theorem sampleWordsDecode : Obligations.SampleWordsDecode := by
  unfold Obligations.SampleWordsDecode
  decide

/-- Settles O5: the pair as a number is `bigEndianWord_eq_ofNat`, and the cases of `decode` are those of the list. -/
theorem decoderConsumesTwoBytes : Obligations.DecoderConsumesTwoBytes := by
  refine ⟨fun hi lo rest => by rw [← bigEndianWord_eq_ofNat]; rfl, fun bytes => ?_⟩
  match bytes with
  | [] => simp [decode]
  | [_] => simp [decode]
  | _ :: _ :: _ => simp [decode]

/-- Settles O6: the two families have no second level, and neither meaning reads the nibble. -/
theorem skipsIgnoreTheLowNibble : Obligations.SkipsIgnoreTheLowNibble :=
  ⟨fun w h => by simp [decodeWord, h], fun w h => by simp [decodeWord, h], fun _ _ _ _ => rfl, fun _ _ _ _ => rfl⟩

end Sys2Proof.Machine
end

section
/-! PROOFS. Control flow (R100 to R111): what each jump, call, return and skip answers, and the frame of each update. -/

namespace Sys2Proof.Machine

/-! ### Frames: updates one after another, each of a component that may change -/

section

variable {vs : List RegIx} {cs : List Component} {s t u : State}

theorem Component.sameIn_refl (c : Component) (s : State) : c.sameIn s s := by
  cases c with
  | stack | memory => exact fun _ => rfl
  | pixels => exact fun _ _ => rfl
  | _ => rfl

theorem Component.sameIn.trans {c : Component} (h : c.sameIn s t) (h' : c.sameIn t u) : c.sameIn s u := by
  cases c with
  | stack | memory => exact fun k => (h' k).trans (h k)
  | pixels => exact fun r c => (h' r c).trans (h r c)
  | _ => exact Eq.trans h' h

theorem onlyChanges_refl (s : State) : OnlyChanges vs cs s s := ⟨fun _ _ => rfl, fun c _ => c.sameIn_refl s⟩

theorem OnlyChanges.trans : OnlyChanges vs cs s t → OnlyChanges vs cs t u → OnlyChanges vs cs s u :=
  fun ⟨hv, hc⟩ ⟨hv', hc'⟩ => ⟨fun r hr => (hv' r hr).trans (hv r hr), fun c hn => (hc c hn).trans (hc' c hn)⟩

theorem onlyChanges_setPc (h : .pc ∈ cs) (s : State) (a : Word) : OnlyChanges vs cs s (s.setPc a) := by
  refine ⟨fun _ _ => rfl, fun c hc => ?_⟩
  cases c with
  | pc => exact absurd h hc
  | _ => simp [Component.sameIn]

theorem onlyChanges_setSp (h : .sp ∈ cs) (s : State) (n : Fin 17) : OnlyChanges vs cs s (s.setSp n) := by
  refine ⟨fun _ _ => rfl, fun c hc => ?_⟩
  cases c with
  | sp => exact absurd h hc
  | _ => simp [Component.sameIn]

theorem onlyChanges_setStackAt (h : .stack ∈ cs) (s : State) (k : Fin 16) (w : Word) :
    OnlyChanges vs cs s (s.setStackAt k w) := by
  refine ⟨fun _ _ => rfl, fun c hc => ?_⟩
  cases c with
  | stack => exact absurd h hc
  | _ => simp [Component.sameIn]

theorem onlyChanges_setGfx (h : .pixels ∈ cs) (s : State) (g : Framebuffer) : OnlyChanges vs cs s (s.setGfx g) := by
  refine ⟨fun _ _ => rfl, fun c hc => ?_⟩
  cases c with
  | pixels => exact absurd h hc
  | _ => simp [Component.sameIn]

theorem onlyChanges_setRunning (h : .running ∈ cs) (s : State) (b : Bool) :
    OnlyChanges vs cs s (s.setRunning b) := by
  refine ⟨fun _ _ => rfl, fun c hc => ?_⟩
  cases c with
  | running => exact absurd h hc
  | _ => simp [Component.sameIn]

theorem onlyChanges_skipIf (h : .pc ∈ cs) (s : State) (p : Bool) : OnlyChanges vs cs s (s.skipIf p) := by
  cases p with
  | false => exact onlyChanges_refl s
  | true => exact onlyChanges_setPc h s _

end

/-! ### The step (R100) -/

theorem State.fetched_eq (s : State) (op : Word) :
    s.fetched op = { s with pc := s.pc + 2, lastOpcode := some op } := rfl

theorem State.retire_eq (s : State) : s.retire = if s.fault = none then { s with cycle := s.cycle + 1 } else s := by
  by_cases h : s.fault = none
  · rw [s.retire_of_no_fault h, if_pos h]
    rfl
  · obtain ⟨f, hf⟩ := Option.ne_none_iff_exists'.1 h
    rw [s.retire_of_fault f hf, if_neg h]

/-- Settles O7: a fetching step is `retired` of the decoded instruction, which is `retire` on a next state and lets every
other answer through. -/
theorem stepRunsTheDecodedInstruction : Obligations.StepRunsTheDecodedInstruction := by
  intro s op hfetch
  rw [step_of_fetches s op hfetch, State.fetched_eq]
  split
  next t ht => rw [ht, retired, t.retire_eq]
  next f hf => rw [hf, retired]
  next r hr => rw [hr, retired]

/-! ### Clearing the screen (R101) -/

/-- Settles O22: CLS replaces the framebuffer by the clear one. -/
theorem clsClearsEveryPixel : Obligations.ClsClearsEveryPixel :=
  ⟨by decide, fun s => ⟨_, rfl, Framebuffer.at_clear, onlyChanges_setGfx (by simp) s _⟩⟩

/-! ### Call and return (R103, R105, R111) -/

section

variable {s : State} {k : Fin 16}

theorem pop_of_sp_eq_succ (h : s.sp = k.succ) : s.pop = some (s.stackAt k, s.setSp k.castSucc) := by
  rw [s.pop_some (by simp [h])]
  simp [h, Fin.castSucc, Fin.castAdd, Fin.castLE]

theorem push_of_sp_eq_castSucc (w : Word) (h : s.sp = k.castSucc) :
    s.push w = some ((s.setStackAt k w).setSp k.succ) := by
  rw [s.push_some w (by simp [h])]
  simp [h, Fin.succ]

theorem execRet_pops (h : s.sp = k.succ) : exec .ret s = .next ((s.setSp k.castSucc).setPc (s.stackAt k)) := by
  simp only [exec, execRet, pop_of_sp_eq_succ h]

theorem execRet_empty (h : s.sp = 0) : exec .ret s = s.raise (.stackUnderflow s.ownAddress) := by
  simp only [exec, execRet, s.pop_empty h]

theorem execCall_pushes (nnn : Addr) (h : s.sp = k.castSucc) :
    exec (.call nnn) s = .next (((s.setStackAt k s.pc).setSp k.succ).setPc (targetOf nnn)) := by
  simp only [exec, execCall, push_of_sp_eq_castSucc _ h]

theorem execCall_full (nnn : Addr) (h : s.sp = 16) :
    exec (.call nnn) s = s.raise (.stackOverflow s.ownAddress) := by
  simp only [exec, execCall, s.push_full _ h]

end

/-- Settles O23: RET pops (`execRet_pops`), and with no entry raises the fault at its own address. -/
theorem retPopsTheReturnAddress : Obligations.RetPopsTheReturnAddress := by
  refine ⟨by decide, fun s k hk => ?_, fun s hs => ⟨_, execRet_empty hs, takesFault_raised s _⟩⟩
  exact ⟨_, execRet_pops (Fin.ext hk), rfl, rfl,
    (onlyChanges_setSp (by simp) s _).trans (onlyChanges_setPc (by simp) _ _)⟩

/-- Settles O25: CALL pushes (`execCall_pushes`), and with 16 entries raises the fault at its own address. -/
theorem callPushesTheReturnAddress : Obligations.CallPushesTheReturnAddress := by
  refine ⟨fun w h => by simp [decodeWord, h], fun nnn s hs => ?_,
    fun nnn s hs => ⟨_, execCall_full nnn hs, takesFault_raised s _⟩⟩
  exact ⟨_, execCall_pushes (k := ⟨s.sp.val, hs⟩) nnn rfl, toNat_targetOf nnn, rfl, fun k => by simp [Fin.ext_iff],
    ((onlyChanges_setStackAt (by simp) s _ _).trans (onlyChanges_setSp (by simp) _ _)).trans
      (onlyChanges_setPc (by simp) _ _)⟩

/-- A CALL, and a RET at any `pc` of the subroutine, leave nothing but the pushed entry (R111). -/
theorem execRet_after_execCall (nnn : Addr) (p : Word) (s : State) (k : Fin 16) (h : s.sp = k.castSucc) :
    exec .ret ((((s.setStackAt k s.pc).setSp k.succ).setPc (targetOf nnn)).setPc p) =
      .next (s.setStackAt k s.pc) := by
  rw [execRet_pops (k := k) rfl, ← h, State.stackAt_setPc, State.stackAt_setPc, State.stackAt_setSp,
    State.stackAt_setStackAt, if_pos rfl]
  rfl

/-- Settles O28: the RET pops the entry that the CALL pushed (`execRet_after_execCall`). -/
theorem retUndoesCall : Obligations.RetUndoesCall := by
  intro nnn p s hs
  obtain ⟨k, hk⟩ : ∃ k : Fin 16, s.sp = k.castSucc := ⟨⟨s.sp.val, hs⟩, rfl⟩
  exact ⟨_, _, execCall_pushes nnn hk, execRet_after_execCall nnn p s k hk, rfl, rfl,
    onlyChanges_setStackAt (by simp) s k s.pc⟩

/-! ### Jumps (R104, R110) -/

theorem targetOf_eq_iff (nnn : Addr) (w : Word) : targetOf nnn = w ↔ nnn.toNat = w.toNat := by
  rw [← toNat_targetOf, BitVec.toNat_inj]

/-- A byte plus a 12-bit address does not reach 2^16, so BNNN never wraps (R110). -/
theorem toNat_offsetOf_add_targetOf (b : Byte) (nnn : Addr) :
    (offsetOf b + targetOf nnn).toNat = b.toNat + nnn.toNat := by
  simp only [offsetOf, targetOf, BitVec.toNat_add, BitVec.toNat_setWidth]
  omega

/-- A fetched self-jump clears `running` and is at its own address again (R104). -/
theorem step_selfJump (s : State) (op : Word) (nnn : Addr) (hfetch : Fetches s op) (hop : decodeWord op = .jp nnn)
    (hself : nnn.toNat = s.pc.toNat) :
    step s = .next { s with running := false, cycle := s.cycle + 1, lastOpcode := some op } := by
  have htarget : targetOf nnn = s.pc := (targetOf_eq_iff nnn s.pc).2 hself
  have hown : targetOf nnn = (s.fetched op).ownAddress := by rw [State.ownAddress_fetched, htarget]
  rw [step_of_fetches s op hfetch, hop, execJp_self nnn _ hown, htarget]
  exact congrArg Host.Outcome.next (State.retire_of_no_fault _ hfetch.1)

/-- Settles O24: the two branches of JP, and `step_selfJump` twice: the state after a self-jump fetches it again. -/
theorem jpJumpsAndDetectsItself : Obligations.JpJumpsAndDetectsItself := by
  refine ⟨fun w h => by simp [decodeWord, h], fun nnn s => ?_, fun s op nnn hfetch hop hself => ?_⟩
  · by_cases hself : targetOf nnn = s.ownAddress
    · exact ⟨_, execJp_self nnn s hself, toNat_targetOf nnn, (if_pos ((targetOf_eq_iff ..).1 hself)).symm,
        (onlyChanges_setRunning (by simp) s _).trans (onlyChanges_setPc (by simp) _ _)⟩
    · exact ⟨_, execJp_elsewhere nnn s hself, toNat_targetOf nnn,
        (if_neg fun h => hself ((targetOf_eq_iff ..).2 h)).symm, onlyChanges_setPc (by simp) s _⟩
  · exact ⟨_, step_selfJump s op nnn hfetch hop hself, rfl, step_selfJump _ op nnn hfetch hop hself⟩

/-- Settles O27: the sum of V0 and NNN fits `pc` (`toNat_offsetOf_add_targetOf`). -/
theorem jpV0AddsWithoutMasking : Obligations.JpV0AddsWithoutMasking :=
  ⟨fun w h => by simp [decodeWord, h], fun nnn s =>
    ⟨_, rfl, toNat_offsetOf_add_targetOf (s.getV 0) nnn, onlyChanges_setPc (by simp) s _⟩⟩

/-! ### Skips (R102, R106 to R109) -/

section

variable {i : Instr} {s : State} {a b : Byte}

/-- A skip on equal operands advances `pc` by 2 more exactly when they are equal. -/
theorem skips_if_eq (h : exec i s = .next (s.skipIf (a == b))) :
    ∃ t, exec i s = .next t ∧ t.pc = (if a = b then s.pc + 2 else s.pc) ∧ OnlyChanges [] [.pc] s t :=
  ⟨_, h, by simp, onlyChanges_skipIf (by simp) s _⟩

/-- A skip on different operands advances `pc` by 2 more exactly when they differ. -/
theorem skips_if_ne (h : exec i s = .next (s.skipIf (a != b))) :
    ∃ t, exec i s = .next t ∧ t.pc = (if a = b then s.pc else s.pc + 2) ∧ OnlyChanges [] [.pc] s t :=
  ⟨_, h, by simp, onlyChanges_skipIf (by simp) s _⟩

end

/-- Settles O26: the four families have no second level, and each skip is one on equal or on different operands. -/
theorem skipsAdvanceOnTheirCondition : Obligations.SkipsAdvanceOnTheirCondition := by
  obtain ⟨hse, hsne, -, -⟩ := skipsIgnoreTheLowNibble
  exact ⟨⟨fun w h => by simp [decodeWord, h], fun w h => by simp [decodeWord, h], hse, hsne⟩,
    fun _ _ _ => skips_if_eq rfl, fun _ _ _ => skips_if_ne rfl, fun _ _ _ _ => skips_if_eq rfl,
    fun _ _ _ _ => skips_if_ne rfl⟩

end Sys2Proof.Machine
end

section
/-! PROOFS. Register and arithmetic (R120 to R132): what a register write and a flag write leave, the operands as
numbers, and the one refusal (R130, R206). -/

namespace Sys2Proof.Machine

/-! ### A result in VX, with and without a flag (R22, R34, R132) -/

section

variable {vs : List RegIx} {cs : List Component} {i : Instr} {x : RegIx} {s : State} {b : Byte} {p : Bool}

theorem onlyChanges_setV (h : x ∈ vs) (s : State) (b : Byte) : OnlyChanges vs cs s (s.setV x b) :=
  ⟨fun r hr => s.getV_setV_other r x b fun e => hr (e ▸ h), fun c _ => by cases c <;> simp [Component.sameIn]⟩

theorem onlyChanges_setResultAndFlag (hx : x ∈ vs) (hf : vf ∈ vs) (s : State) (b : Byte) (p : Bool) :
    OnlyChanges vs cs s (s.setResultAndFlag x b p) :=
  (onlyChanges_setV hx s b).trans (onlyChanges_setV hf _ _)

/-- An instruction that sets VX and no flag changes nothing else. -/
theorem writes_register (h : exec i s = .next (s.setV x b)) :
    ∃ t, exec i s = .next t ∧ t.getV x = b ∧ OnlyChanges [x] [] s t :=
  ⟨_, h, s.getV_setV_same x b, onlyChanges_setV (by simp) s b⟩

/-- An instruction that sets VX and then the flag leaves the result in VX unless X = 0xF, and the flag in VF. -/
theorem writes_register_and_flag (h : exec i s = .next (s.setResultAndFlag x b p)) :
    ∃ t, exec i s = .next t ∧ (x ≠ vf → t.getV x = b) ∧ t.getV vf = flagByte p ∧ OnlyChanges [x, vf] [] s t :=
  ⟨_, h, fun hx => by simp [hx], by simp, onlyChanges_setResultAndFlag (by simp) (by simp) s b p⟩

end

/-! ### Results and flags as numbers (R126 to R131) -/

theorem toNat_wrapSum (n : Nat) : (wrapSum n).toNat = n % 256 := by
  simp [wrapSum]

theorem toNat_wrapDiff (d : Int) : ((wrapDiff d).toNat : Int) = d % 256 := by
  simp only [wrapDiff, BitVec.toNat_ofNat]
  omega

theorem flagByte_carryFlag (threshold sum : Nat) :
    flagByte (carryFlag threshold sum) = if sum > threshold then 1 else 0 := by
  simp [flagByte, carryFlag]

theorem flagByte_positiveFlag_byteDiff (a b : Byte) :
    flagByte (positiveFlag (byteDiff a b)) = if b.toNat < a.toNat then 1 else 0 := by
  simp [flagByte, positiveFlag, byteDiff]

theorem toNat_flagByte (p : Bool) : (flagByte p).toNat = p.toNat := by
  cases p <;> rfl

theorem toNat_flagByte_shiftedOutLow (b : Byte) : (flagByte (shiftedOutLow b)).toNat = b.toNat % 2 := by
  rw [toNat_flagByte, shiftedOutLow, BitVec.getLsbD, Nat.toNat_testBit, Nat.pow_zero, Nat.div_one]

/-- Bit 7 is the whole of a byte divided by 128. -/
theorem toNat_flagByte_shiftedOutHigh (b : Byte) : (flagByte (shiftedOutHigh b)).toNat = b.toNat / 128 := by
  rw [toNat_flagByte, shiftedOutHigh, BitVec.getLsbD, Nat.toNat_testBit]
  omega

theorem toNat_byte_ushiftRight_one (b : Byte) : (b >>> 1).toNat = b.toNat / 2 := by
  rw [BitVec.toNat_ushiftRight, Nat.shiftRight_eq_div_pow, Nat.pow_one]

theorem toNat_byte_shiftLeft_one (b : Byte) : (b <<< 1).toNat = b.toNat * 2 % 256 := by
  rw [BitVec.toNat_shiftLeft, Nat.shiftLeft_eq, Nat.pow_one]

/-! ### Loads, copies and logic (R120 to R125) -/

/-- Settles O29: both are writes of VX alone, and the sum is stored modulo 256 (`toNat_wrapSum`). -/
theorem immediateLoadAndAdd : Obligations.ImmediateLoadAndAdd := by
  refine ⟨fun w h => by simp [decodeWord, h], fun w h => by simp [decodeWord, h], fun _ _ _ => writes_register rfl,
    fun x nn s => ?_⟩
  obtain ⟨t, ht, hx, hframe⟩ := writes_register (i := .addImm x nn) (s := s) rfl
  exact ⟨t, ht, by rw [hx, toNat_wrapSum, byteSum], hframe⟩

/-- Settles O30: the four are writes of VX alone. -/
theorem copyAndLogicWriteOnlyVx : Obligations.CopyAndLogicWriteOnlyVx := by
  refine ⟨fun w h => ?_, fun _ _ _ => writes_register rfl, fun _ _ _ => writes_register rfl,
    fun _ _ _ => writes_register rfl, fun _ _ _ => writes_register rfl⟩
  rw [decodeWord_family8 w h]
  exact ⟨fun hn => by simp [decodeFamily8, hn], fun hn => by simp [decodeFamily8, hn],
    fun hn => by simp [decodeFamily8, hn], fun hn => by simp [decodeFamily8, hn]⟩

/-! ### Sums and differences (R126, R127, R129) -/

/-- Settles O31: the sum in VX is `toNat_wrapSum`, the carry in VF `flagByte_carryFlag`. -/
theorem addRegisterSetsCarryAboveThreshold : Obligations.AddRegisterSetsCarryAboveThreshold := by
  refine ⟨fun w h hn => by simp [decodeWord_family8 w h, decodeFamily8, hn], rfl, rfl, fun x y s => ?_⟩
  obtain ⟨t, ht, hx, hflag, hframe⟩ := writes_register_and_flag (i := .addReg x y) (s := s) rfl
  exact ⟨t, ht, fun hne => by rw [hx hne, toNat_wrapSum, byteSum], by rw [hflag, flagByte_carryFlag, byteSum], hframe⟩

/-- An instruction that subtracts `b` from `a` into VX: the difference modulo 256, and whether it is positive. -/
theorem subtracts {i : Instr} {x : RegIx} {s : State} {a b : Byte}
    (h : exec i s = .next (s.setResultAndFlag x (wrapDiff (byteDiff a b)) (positiveFlag (byteDiff a b)))) :
    ∃ t, exec i s = .next t ∧ (x ≠ vf → ((t.getV x).toNat : Int) = (a.toNat - b.toNat : Int) % 256) ∧
      t.getV vf = (if b.toNat < a.toNat then 1 else 0) ∧ OnlyChanges [x, vf] [] s t := by
  obtain ⟨t, ht, hx, hflag, hframe⟩ := writes_register_and_flag h
  exact ⟨t, ht, fun hne => by rw [hx hne, toNat_wrapDiff, byteDiff], by rw [hflag, flagByte_positiveFlag_byteDiff],
    hframe⟩

/-- Settles O32: both are `subtracts`, with the operands the one way and the other. -/
theorem subtractionsSetFlagWhenPositive : Obligations.SubtractionsSetFlagWhenPositive :=
  ⟨fun w h hn => by simp [decodeWord_family8 w h, decodeFamily8, hn],
    fun w h hn => by simp [decodeWord_family8 w h, decodeFamily8, hn],
    fun _ _ _ => subtracts rfl, fun _ _ _ => subtracts rfl⟩

/-! ### Shifts (R128, R130) -/

/-- Settles O33: the quotient by 2 goes to VX, the remainder to VF. -/
theorem shiftRightMovesLowBitToFlag : Obligations.ShiftRightMovesLowBitToFlag := by
  refine ⟨fun w h hn => by simp [decodeWord_family8 w h, decodeFamily8, hn], fun x y s => ?_⟩
  obtain ⟨t, ht, hx, hflag, hframe⟩ := writes_register_and_flag (i := .shr x y) (s := s) rfl
  exact ⟨t, ht, fun hne => by rw [hx hne, toNat_byte_ushiftRight_one], by rw [hflag, toNat_flagByte_shiftedOutLow],
    hframe⟩

/-- Settles O34: the two branches of 8XYE are `execShl_shifts` and `execShl_refused`. -/
theorem shiftLeftMovesHighBitToFlag : Obligations.ShiftLeftMovesHighBitToFlag := by
  refine ⟨fun w h hn => by simp [decodeWord_family8 w h, decodeFamily8, hn], fun x y s h => ?_,
    fun x y s hmode hx => execShl_refused x y s ⟨hmode, hx⟩⟩
  have hshifts : ¬(s.cfg.shl = .refuse ∧ 0x80 ≤ (s.getV x).toNat) := by
    rintro ⟨hmode, hge⟩
    rcases h with hmask | hlt
    · cases hmask.symm.trans hmode
    · exact Nat.not_le.2 hlt hge
  obtain ⟨t, ht, hx, hflag, hframe⟩ := writes_register_and_flag (execShl_shifts x y s hshifts)
  exact ⟨t, ht, fun hne => by rw [hx hne, toNat_byte_shiftLeft_one], by rw [hflag, toNat_flagByte_shiftedOutHigh],
    hframe⟩

/-! ### The one refusal (R130, R206, R230) -/

/-- Every instruction answers a next state, but for a left shift that `SHL_MODE` = `refuse` refuses. -/
theorem exec_next_or_refused (i : Instr) (s : State) :
    (∃ t, exec i s = .next t) ∨
      (exec i s = .refused .shlRefused ∧ s.cfg.shl = .refuse ∧ ∃ x y, i = .shl x y ∧ 0x80 ≤ (s.getV x).toNat) := by
  cases i
  case shl x y =>
    by_cases h : s.cfg.shl = .refuse ∧ 0x80 ≤ (s.getV x).toNat
    · exact .inr ⟨execShl_refused x y s h, h.1, x, y, rfl, h.2⟩
    · exact .inl ⟨_, execShl_shifts x y s h⟩
  case ret => exact .inl ((execRet_cases s).elim (fun h => ⟨_, h.2⟩) fun ⟨_, h⟩ => ⟨_, h⟩)
  case call nnn => exact .inl ((execCall_cases nnn s).elim (fun h => ⟨_, h.2⟩) fun ⟨_, h⟩ => ⟨_, h⟩)
  case drw x y n => exact .inl ((execDrw_cases x y n s).elim (fun h => ⟨_, h.2⟩) fun h => ⟨_, h.2⟩)
  all_goals exact .inl ⟨_, rfl⟩

/-- Every step answers a next state, but for one that fetches a left shift that is refused. -/
theorem step_next_or_refused (s : State) :
    (∃ t, step s = .next t) ∨
      (step s = .refused .shlRefused ∧ s.cfg.shl = .refuse ∧
        ∃ op x y, Fetches s op ∧ decodeWord op = .shl x y ∧ 0x80 ≤ (s.getV x).toNat) := by
  cases hfault : s.fault with
  | some f => exact .inl ⟨_, step_of_fault s f hfault⟩
  | none =>
    rcases s.fetchWord_cases with ⟨hpc, hw⟩ | ⟨a, -, hw⟩
    · have hstep := step_of_fetch_ok s _ hfault hw
      rcases exec_next_or_refused _ _ with ⟨t, ht⟩ | ⟨hr, hmode, x, y, hop, hx⟩
      · exact .inl ⟨t.retire, by rw [hstep, ht]; rfl⟩
      · exact .inr ⟨by rw [hstep, hr]; rfl, hmode, _, x, y, fetches_of_fetchWord s _ hfault hpc hw, hop, hx⟩
    · exact .inl ⟨_, step_of_fetch_error s _ hfault hw⟩

/-- A step that fetches a left shift that is refused is refused itself. -/
theorem step_refused_of_fetches_shl (s : State) (op : Word) (x : RegIx) (y : Nibble) (hfetch : Fetches s op)
    (hop : decodeWord op = .shl x y) (hmode : s.cfg.shl = .refuse) (hx : 0x80 ≤ (s.getV x).toNat) :
    step s = .refused .shlRefused := by
  rw [step_of_fetches s op hfetch, hop, execShl_refused x y (s.fetched op) ⟨hmode, hx⟩]
  rfl

/-- Under a refusal mark, calls with no reset among them can be left out (R206). -/
theorem portRun_marked_append (r : Refusal) (cs ds : List PortCall) (s : State)
    (h : ∀ v i m, PortCall.reset v i m ∉ cs) : portRun (some r) (cs ++ ds) s = portRun (some r) ds s := by
  induction cs with
  | nil => rfl
  | cons c cs ih =>
    have h' (v i m) := List.ne_and_not_mem_of_not_mem_cons (h v i m)
    rw [List.cons_append, portRun_marked_other r c (cs ++ ds) s fun v i m => (h' v i m).1.symm]
    exact ih fun v i m => (h' v i m).2

/-- Settles O13: what a step answers is `step_next_or_refused`; then the mark takes every call to the next reset. -/
theorem onlyShiftLeftRefuses : Obligations.OnlyShiftLeftRefuses := by
  refine ⟨fun s => ⟨fun f hf => ?_, fun r => ⟨fun hr => ?_, ?_⟩⟩, fun s r hr => ?_⟩
  · rcases step_next_or_refused s with ⟨t, ht⟩ | ⟨hs, -⟩
    · cases ht.symm.trans hf
    · cases hs.symm.trans hf
  · rcases step_next_or_refused s with ⟨t, ht⟩ | ⟨hs, hcond⟩
    · cases ht.symm.trans hr
    · cases hs.symm.trans hr
      exact ⟨rfl, hcond⟩
  · rintro ⟨rfl, hmode, op, x, y, hfetch, hop, hx⟩
    exact step_refused_of_fetches_shl s op x y hfetch hop hmode hx
  · have hmark (cs : List PortCall) := portCalls_cons_refused .step cs s r hr
    refine ⟨fun cs hcs => ?_, fun cs ds v i m hcs => ?_⟩
    · rw [hmark, portRun_marked_of_no_reset r cs s hcs]
    · rw [hmark, portRun_marked_append r cs _ s hcs, portRun_marked_reset]

end Sys2Proof.Machine
end

section
/-! PROOFS. The index register and the random byte (R140 to R146): the two computed addresses as numbers, and the frames
of a write to I and of a draw of a byte. -/

namespace Sys2Proof.Machine

/-! ### Frames -/

section

variable {vs : List RegIx} {cs : List Component}

theorem onlyChanges_setI (h : .index ∈ cs) (s : State) (a : Addr) : OnlyChanges vs cs s (s.setI a) := by
  refine ⟨fun _ _ => rfl, fun c hc => ?_⟩
  cases c with
  | index => exact absurd h hc
  | _ => simp [Component.sameIn]

theorem onlyChanges_setDraws (h : .draws ∈ cs) (s : State) (n : Nat) : OnlyChanges vs cs s (s.setDraws n) := by
  refine ⟨fun _ _ => rfl, fun c hc => ?_⟩
  cases c with
  | draws => exact absurd h hc
  | _ => simp [Component.sameIn]

theorem onlyChanges_rndWith (r : Byte) (x : RegIx) (nn : Byte) (s : State) :
    OnlyChanges [x] [.draws] s (rndWith r x nn s) :=
  (onlyChanges_setV (by simp) s _).trans (onlyChanges_setDraws (by simp) _ _)

end

/-! ### The new value of I (R140, R142, R144) -/

/-- No modulus of R9 exceeds the 12 bits of I. -/
theorem indexAddMod_pos_and_le (m : Config.IndexAddMod) : 0 < indexAddMod m ∧ indexAddMod m ≤ 2 ^ 12 := by
  cases m <;> decide

theorem toNat_indexSum (m : Config.IndexAddMod) (b : Byte) (i : Addr) :
    (indexSum (indexAddMod m) b i).toNat = (b.toNat + i.toNat) % indexAddMod m := by
  obtain ⟨hpos, hle⟩ := indexAddMod_pos_and_le m
  rw [indexSum, BitVec.toNat_ofNat, Nat.mod_eq_of_lt ((Nat.mod_lt _ hpos).trans_le hle)]

/-- Five times a byte is at most 1275, and so fits the 12 bits of I unmasked. -/
theorem toNat_glyphAddress (b : Byte) : (glyphAddress b).toNat = b.toNat * 5 := by
  have hfits : b.toNat * 5 < 2 ^ 12 := by omega
  rw [glyphAddress, BitVec.toNat_ofNat, Nat.zero_add]
  exact Nat.mod_eq_of_lt hfits

/-- An instruction that sets I changes nothing else. -/
theorem writes_index {i : Instr} {s : State} {a : Addr} (h : exec i s = .next (s.setI a)) :
    ∃ t, exec i s = .next t ∧ t.i = a ∧ OnlyChanges [] [.index] s t :=
  ⟨_, h, s.i_setI a, onlyChanges_setI (by simp) s a⟩

/-- Settles O35: the three are writes of I alone, and the computed addresses are `toNat_indexSum` and
`toNat_glyphAddress`. -/
theorem indexInstructionsWriteOnlyIndex : Obligations.IndexInstructionsWriteOnlyIndex := by
  refine ⟨fun w h => by simp [decodeWord, h], fun w h hn => ?_, fun w h hn => ?_, ⟨rfl, rfl, rfl⟩,
    fun _ _ => writes_index rfl, fun x s => ?_, fun x s => ?_⟩
  · rw [decodeWord_familyF w h]
    simp [decodeFamilyF, hn]
  · rw [decodeWord_familyF w h]
    simp [decodeFamilyF, hn]
  · obtain ⟨t, ht, hi, hframe⟩ := writes_index (i := .addI x) (s := s) rfl
    exact ⟨t, ht, hi ▸ toNat_indexSum _ _ _, hframe⟩
  · obtain ⟨t, ht, hi, hframe⟩ := writes_index (i := .ldF x) (s := s) rfl
    exact ⟨t, ht, hi ▸ toNat_glyphAddress _, hframe⟩

/-! ### The random byte (R146) -/

theorem getV_rndWith (r : Byte) (x : RegIx) (nn : Byte) (s : State) : (rndWith r x nn s).getV x = r &&& nn := by
  rw [rndWith, State.getV_setDraws, State.getV_setV_same]

/-- Settles O36: VX holds the byte masked with NN (`getV_rndWith`); the masks of R146 are laws of `&&&`. -/
theorem randomByteIsMasked : Obligations.RandomByteIsMasked := by
  refine ⟨fun w h => by simp [decodeWord, h], fun _ _ _ => ⟨_, _, rfl, rfl⟩, fun r x nn s => ?_⟩
  rw [getV_rndWith]
  refine ⟨rfl, ?_, ?_, ?_, onlyChanges_rndWith r x nn s⟩
  · rw [BitVec.and_assoc, BitVec.and_not_self]
    exact BitVec.and_zero
  · rintro rfl
    exact BitVec.and_zero
  · rintro rfl
    exact BitVec.and_allOnes

end Sys2Proof.Machine
end

section
/-! PROOFS. The sprite draw as a whole (R160 to R165): its bits land on different pixels, so what it leaves on a pixel
and whether it collides can be said without the order of its plots; a second draw follows from what one draw does. -/

namespace Sys2Proof.Machine

/-! ### Where the bits of a draw land (R160, R165) -/

theorem landsOn_iff {x y : Byte} {h w : Nat} {r : Fin 32} {c : Fin 64} :
    LandsOn x y h w r c ↔ spriteRow y h = r ∧ spriteCol x w = c := by
  rw [Fin.ext_iff, Fin.ext_iff, eq_comm (b := r.val), eq_comm (b := c.val)]
  rfl

/-- A sprite has fewer rows than the grid, so wrapping brings no two of them together. -/
theorem spriteRow_inj {y : Byte} {h h' : Nat} (hh : h < 15) (hh' : h' < 15) (e : spriteRow y h = spriteRow y h') :
    h = h' := by
  have hmod : (y.toNat + h) % 32 = (y.toNat + h') % 32 := Fin.ext_iff.1 e
  omega

theorem spriteCol_inj {x : Byte} {w w' : Nat} (hw : w < 8) (hw' : w' < 8) (e : spriteCol x w = spriteCol x w') :
    w = w' := by
  have hmod : (x.toNat + w) % 64 = (x.toNat + w') % 64 := Fin.ext_iff.1 e
  omega

/-- No two plots of a draw are at one pixel: two of a row differ in the column, two of different rows in the row. -/
theorem plotsFrom_apart (x y : Byte) (h : Nat) (rows : List Byte) (hlen : h + rows.length ≤ 15) :
    (plotsFrom x y h rows).Pairwise fun p q => ¬ samePixel p q := by
  induction rows generalizing h with
  | nil => exact .nil
  | cons row rows ih =>
    rw [List.length_cons] at hlen
    refine List.pairwise_append.2 ⟨List.pairwise_map.2 ?_, ih (h + 1) (by omega), fun p hp q hq hpq => ?_⟩
    · have hdistinct : [0, 1, 2, 3, 4, 5, 6, 7].Nodup := by decide
      have hcol : ∀ w ∈ [0, 1, 2, 3, 4, 5, 6, 7], w < 8 := by decide
      exact hdistinct.imp_of_mem fun hw hw' hne hpq => hne (spriteCol_inj (hcol _ hw) (hcol _ hw') hpq.2)
    · obtain ⟨w, -, rfl⟩ := List.mem_map.1 hp
      obtain ⟨k, w', hk, -, rfl⟩ := (mem_plotsFrom x y (h + 1) rows q).1 hq
      have hrow := spriteRow_inj (by omega) (by omega) hpq.1
      omega

/-- Bits plotted at different pixels can be plotted in either order: neither reads what the other wrote. -/
theorem Canvas.plot_comm (d : Canvas) (r r' : Fin 32) (c c' : Fin 64) (b b' : Bool) (h : ¬(r = r' ∧ c = c')) :
    (d.plot r c b).plot r' c' b' = (d.plot r' c' b').plot r c b := by
  have hgfx := Framebuffer.put_comm d.gfx r r' c c' b b' h
  have hcollision : ((d.plot r c b).plot r' c' b').collision = ((d.plot r' c' b').plot r c b).collision := by
    have h' : ¬(r' = r ∧ c' = c) := fun e => h ⟨e.1.symm, e.2.symm⟩
    simp only [Canvas.collision_plot, Canvas.at_plot, if_neg h, if_neg h']
    exact Bool.or_right_comm _ _ _
  exact congrArg₂ Canvas.mk hgfx hcollision

/-- Settles O38: `spriteRow_inj` and `spriteCol_inj` keep the bits apart, and `Canvas.plot_comm` swaps them. -/
theorem drawReachesEachPixelOnce : Obligations.DrawReachesEachPixelOnce := by
  refine ⟨fun x y h h' w w' hh hh' hw hw' hr hc => ⟨spriteRow_inj hh hh' hr, spriteCol_inj hw hw' hc⟩,
    fun d x y h h' w w' b b' hh hh' hw hw' hne => d.plot_comm _ _ _ _ b b' fun ⟨hr, hc⟩ => hne ?_⟩
  rw [spriteRow_inj hh hh' hr, spriteCol_inj hw hw' hc]

/-! ### What one draw leaves (R161 to R164) -/

/-- A 1 bit of the `n` rows at `I`, drawn at column `x`, row `y`, meets a lit pixel (R162). -/
def Collides (x y : Byte) (n : Nat) (s : State) : Prop :=
  ∃ h w r c, h < n ∧ w < 8 ∧ LandsOn x y h w r c ∧ spriteBitAt s h w = true ∧ s.pixel r c = true

/-- `t` is `s` with the `n` sprite rows at `I` drawn at column `x`, row `y` (R160 to R164). -/
structure SpriteDrawn (x y : Byte) (n : Nat) (s t : State) : Prop where
  inside : ∀ h w r c, h < n → w < 8 → LandsOn x y h w r c → t.pixel r c = spriteBitAt s h w
  outside : ∀ r c, (∀ h w, h < n → w < 8 → ¬ LandsOn x y h w r c) → t.pixel r c = s.pixel r c
  hit : Collides x y n s → t.getV vf = 1
  miss : ¬ Collides x y n s → t.getV vf = 0
  frame : OnlyChanges [vf] [.pixels] s t

section

variable (s : State) (x y : Byte) (n : Nat)

/-- The plots of a draw, by the sprite's bits in memory. -/
theorem mem_plotsFrom_spriteRows (p : Fin 32 × Fin 64 × Bool) :
    p ∈ plotsFrom x y 0 (spriteRows s n) ↔
      ∃ h w, h < n ∧ w < 8 ∧ p = (spriteRow y h, spriteCol x w, spriteBitAt s h w) := by
  simp [mem_plotsFrom, spriteRows, spriteBit, spriteBitAt, and_left_comm]

theorem drawSprite_eq_plotAll (rows : List Byte) :
    s.drawSprite x y rows = Canvas.plotAll ⟨s.gfx, false⟩ (plotsFrom x y 0 rows) :=
  Canvas.drawRows_eq_plotAll _ x y 0 rows

theorem plotsFrom_spriteRows_apart (hn : n < 16) :
    (plotsFrom x y 0 (spriteRows s n)).Pairwise fun p q => ¬ samePixel p q :=
  plotsFrom_apart x y 0 _ (by rw [spriteRows, List.length_map, List.length_range]; omega)

variable {s x y n}

theorem at_drawSprite_inside (hn : n < 16) {h w : Nat} {r : Fin 32} {c : Fin 64} (hh : h < n) (hw : w < 8)
    (hl : LandsOn x y h w r c) : (s.drawSprite x y (spriteRows s n)).gfx.at r c = spriteBitAt s h w := by
  obtain ⟨hr, hc⟩ := landsOn_iff.1 hl
  rw [drawSprite_eq_plotAll]
  exact (Canvas.at_plotAll _ _ (plotsFrom_spriteRows_apart s x y n hn) r c).1 _
    ((mem_plotsFrom_spriteRows s x y n _).2 ⟨h, w, hh, hw, rfl⟩) hr hc

theorem at_drawSprite_outside (hn : n < 16) {r : Fin 32} {c : Fin 64}
    (hl : ∀ h w, h < n → w < 8 → ¬ LandsOn x y h w r c) :
    (s.drawSprite x y (spriteRows s n)).gfx.at r c = s.pixel r c := by
  rw [drawSprite_eq_plotAll]
  refine (Canvas.at_plotAll _ _ (plotsFrom_spriteRows_apart s x y n hn) r c).2 fun p hp hrc => ?_
  obtain ⟨h, w, hh, hw, rfl⟩ := (mem_plotsFrom_spriteRows s x y n p).1 hp
  exact hl h w hh hw (landsOn_iff.2 hrc)

theorem collision_drawSprite (hn : n < 16) :
    (s.drawSprite x y (spriteRows s n)).collision = true ↔ Collides x y n s := by
  rw [drawSprite_eq_plotAll, Canvas.collision_plotAll _ _ (plotsFrom_spriteRows_apart s x y n hn)]
  constructor
  · rintro (hfalse | ⟨p, hp, hbit, hlit⟩)
    · cases hfalse
    · obtain ⟨h, w, hh, hw, rfl⟩ := (mem_plotsFrom_spriteRows s x y n p).1 hp
      exact ⟨h, w, _, _, hh, hw, landsOn_iff.2 ⟨rfl, rfl⟩, hbit, hlit⟩
  · rintro ⟨h, w, r, c, hh, hw, hl, hbit, hlit⟩
    obtain ⟨rfl, rfl⟩ := landsOn_iff.1 hl
    exact .inr ⟨_, (mem_plotsFrom_spriteRows s x y n _).2 ⟨h, w, hh, hw, rfl⟩, hbit, hlit⟩

theorem spriteDrawn_drawSprite (hn : n < 16) :
    SpriteDrawn x y n s ((s.setGfx (s.drawSprite x y (spriteRows s n)).gfx).setFlag
      (s.drawSprite x y (spriteRows s n)).collision) where
  inside _ _ _ _ := at_drawSprite_inside hn
  outside _ _ := at_drawSprite_outside hn
  hit h := by simp [(collision_drawSprite hn).2 h, flagByte]
  miss h := by simp [mt (collision_drawSprite hn).1 h, flagByte]
  frame := (onlyChanges_setGfx (by simp) s _).trans (onlyChanges_setV (by simp) _ _)

end

/-- A draw whose rows lie in memory draws them (R160 to R164). -/
theorem execDrw_drawn (x y : RegIx) (n : Fin 16) (s : State) (h : RowsInMemory s n.val) :
    ∃ t, exec (.drw x y n) s = .next t ∧ SpriteDrawn (s.getV x) (s.getV y) n.val s t :=
  ⟨_, execDrw_inMemory x y n s h, spriteDrawn_drawSprite n.isLt⟩

/-- The first row outside memory is at `MEM_SIZE`, or at `I` when `I` is outside itself (R162). -/
theorem firstRowOutside_eq (i size h : Nat) (hout : size ≤ i + h) (hin : ∀ k, k < h → i + k < size) :
    max i size = i + h := by
  cases h with
  | zero => omega
  | succ k =>
    have hlast := hin k (Nat.lt_succ_self k)
    omega

/-- Settles O37: `execDrw_drawn`, and outside memory the fault of `execDrw_outOfMemory`, its address by
`firstRowOutside_eq`. -/
theorem drawOverwritesRectangleAndFlagsCollision : Obligations.DrawOverwritesRectangleAndFlagsCollision := by
  refine ⟨fun w h => by simp [decodeWord, h], fun x y n s hrows => ?_, fun x y n s h hn hout hin => ?_⟩
  · obtain ⟨t, ht, hinside, houtside, hhit, hmiss, hframe⟩ := execDrw_drawn x y n s hrows
    exact ⟨t, ht, hinside, houtside, hhit, hmiss, hframe⟩
  · have hrows : ¬ RowsInMemory s n.val := by unfold RowsInMemory; omega
    rw [← firstRowOutside_eq _ _ h hout hin]
    exact ⟨_, execDrw_outOfMemory x y n s hrows, takesFault_raised s _⟩

/-! ### A second draw (R163) -/

namespace SpriteDrawn

variable {x y : Byte} {n : Nat} {s t u : State}

/-- A draw leaves the sprite it read as it was. -/
theorem spriteBitAt_eq (ht : SpriteDrawn x y n s t) (h w : Nat) : spriteBitAt t h w = spriteBitAt s h w := by
  have hi : t.i = s.i := ht.frame.2 .index (by simp)
  have hmem : ∀ a, t.mem.read a = s.mem.read a := ht.frame.2 .memory (by simp)
  rw [spriteBitAt, spriteBitAt, hi, hmem]

theorem rowsInMemory (ht : SpriteDrawn x y n s t) (hrows : RowsInMemory s n) : RowsInMemory t n := by
  have hi : t.i = s.i := ht.frame.2 .index (by simp)
  have hcfg : t.cfg = s.cfg := ht.frame.2 .cfg (by simp)
  rwa [RowsInMemory, State.memSize, hi, hcfg]

theorem getV_eq (ht : SpriteDrawn x y n s t) {z : RegIx} (hz : z ≠ vf) : t.getV z = s.getV z :=
  ht.frame.1 z (by simpa using hz)

theorem flag_eq_one_iff (ht : SpriteDrawn x y n s t) : t.getV vf = 1 ↔ Collides x y n s := by
  refine ⟨fun hone => ?_, ht.hit⟩
  by_contra hc
  exact absurd ((ht.miss hc).symm.trans hone) (by decide)

/-- The pixels of the rectangle hold the sprite's bits already, so drawing them again writes what is there. -/
theorem pixel_second (ht : SpriteDrawn x y n s t) (hu : SpriteDrawn x y n t u) (r : Fin 32) (c : Fin 64) :
    u.pixel r c = t.pixel r c := by
  by_cases hl : ∃ h w, h < n ∧ w < 8 ∧ LandsOn x y h w r c
  · obtain ⟨h, w, hh, hw, hl⟩ := hl
    calc u.pixel r c = spriteBitAt t h w := hu.inside h w r c hh hw hl
      _ = spriteBitAt s h w := ht.spriteBitAt_eq h w
      _ = t.pixel r c := (ht.inside h w r c hh hw hl).symm
  · exact hu.outside r c fun h w hh hw hlands => hl ⟨h, w, hh, hw, hlands⟩

/-- On a sprite already drawn each 1 bit meets the pixel it lit itself. -/
theorem collides_second_iff (ht : SpriteDrawn x y n s t) :
    Collides x y n t ↔ ∃ h w, h < n ∧ w < 8 ∧ spriteBitAt s h w = true := by
  constructor
  · rintro ⟨h, w, -, -, hh, hw, -, hbit, -⟩
    exact ⟨h, w, hh, hw, ht.spriteBitAt_eq h w ▸ hbit⟩
  · rintro ⟨h, w, hh, hw, hbit⟩
    have hl : LandsOn x y h w (spriteRow y h) (spriteCol x w) := landsOn_iff.2 ⟨rfl, rfl⟩
    exact ⟨h, w, _, _, hh, hw, hl, (ht.spriteBitAt_eq h w).trans hbit, (ht.inside h w _ _ hh hw hl).trans hbit⟩

end SpriteDrawn

/-- Settles O39: the second draw is at the same place, for X and Y other than 0xF; its pixels are
`SpriteDrawn.pixel_second`, its flag `SpriteDrawn.collides_second_iff`. -/
theorem secondDrawLeavesThePixels : Obligations.SecondDrawLeavesThePixels := by
  intro x y n s hx hy hrows
  obtain ⟨t, hst, ht⟩ := execDrw_drawn x y n s hrows
  obtain ⟨u, htu, hu⟩ := execDrw_drawn x y n t (ht.rowsInMemory hrows)
  rw [ht.getV_eq hx, ht.getV_eq hy] at hu
  exact ⟨t, u, hst, htu, ht.pixel_second hu, (hu.flag_eq_one_iff.trans ht.collides_second_iff).symm⟩

/-! ### The read ports (R166, R217, R218) -/

/-- Settles O45: a read port answers the state it was asked of, and each snapshot copies the components it names. -/
theorem readPortsChangeNothing : Obligations.ReadPortsChangeNothing :=
  fun _ => ⟨rfl, rfl, rfl, fun _ _ => rfl, rfl, rfl⟩

end Sys2Proof.Machine
end

section
/-! PROOFS. The two stubs (R180, R181): what each answers on a term, the frame of a report, and the terms dispatched to
each stub. -/

namespace Sys2Proof.Machine

theorem onlyChanges_emit {vs : List RegIx} {cs : List Component} (h : .channel ∈ cs) (s : State) (c : Condition) :
    OnlyChanges vs cs s (s.emit c) := by
  refine ⟨fun _ _ => rfl, fun d hd => ?_⟩
  cases d with
  | channel => exact absurd h hd
  | _ => simp [Component.sameIn]

theorem unknownOpcode_eq (i : Instr) (s : State) :
    unknownOpcode i s = .next (s.emit (.unknownOpcode (encode i))) := s.report_eq _

theorem notImplemented_eq (i : Instr) (s : State) :
    notImplemented i s = .next (s.emit (.notImplemented (encode i))) := s.report_eq _

/-- Settles O40: nine terms are dispatched to the UnknownOpcode stub and ten to the NotImplemented stub, so each answers
what that stub does (`unknownOpcode_eq`, `notImplemented_eq`); a report changes only the channel. -/
theorem stubsOnlyReport : Obligations.StubsOnlyReport :=
  ⟨fun nnn => unknownOpcode_eq (.unknown0NNN nnn),
    fun x y => unknownOpcode_eq (.unknown8XY8 x y),
    fun x y => unknownOpcode_eq (.unknown8XY9 x y),
    fun x y => unknownOpcode_eq (.unknown8XYA x y),
    fun x y => unknownOpcode_eq (.unknown8XYB x y),
    fun x y => unknownOpcode_eq (.unknown8XYC x y),
    fun x y => unknownOpcode_eq (.unknown8XYD x y),
    fun x y => unknownOpcode_eq (.unknown8XYF x y),
    fun x nn => unknownOpcode_eq (.unknownFXnn x nn),
    fun x => notImplemented_eq (.skpStub x),
    fun x => notImplemented_eq (.sknpStub x),
    fun nnn => notImplemented_eq (.notHandledE nnn),
    fun x => notImplemented_eq (.ldVxDtStub x),
    fun x => notImplemented_eq (.ldVxKStub x),
    fun x => notImplemented_eq (.ldDtVxStub x),
    fun x => notImplemented_eq (.ldStVxStub x),
    fun x => notImplemented_eq (.ldBVxStub x),
    fun x => notImplemented_eq (.ldMemVxStub x),
    fun x => notImplemented_eq (.ldVxMemStub x),
    fun s c => ⟨s.channel_emit c, onlyChanges_emit (by simp) s c⟩⟩

end Sys2Proof.Machine
end

section
/-! PROOFS. Fatal faults and reports (R200 to R207): what a load answers, what a faulting step or load leaves, and the
invariant over port calls (R206, R215, R219). -/

namespace Sys2Proof.Machine

/-! ### The load (R55, R204) -/

theorem load_of_fault (s : State) (f : Fault) (bytes : List Byte) (offset : Nat) (h : s.fault = some f) :
    s.load bytes offset = s := by
  simp only [State.load, h]

/-- Everything a load can do: nothing, because a fault is recorded; write its bytes, which fit; or record its fault. -/
theorem load_cases (s : State) (bytes : List Byte) (offset : Nat) :
    (∃ f, s.fault = some f ∧ s.load bytes offset = s) ∨
      (s.fault = none ∧ offset + bytes.length ≤ s.memSize ∧
        s.load bytes offset = s.setMem (s.mem.writeBytes offset bytes)) ∨
      (s.fault = none ∧ s.memSize < offset + bytes.length ∧
        s.load bytes offset = s.latchFault (.romLoadOutOfRange offset bytes.length)) := by
  cases hs : s.fault with
  | some f => exact .inl ⟨f, rfl, load_of_fault s f bytes offset hs⟩
  | none =>
    rcases Nat.lt_or_ge s.memSize (offset + bytes.length) with h | h
    · exact .inr (.inr ⟨rfl, h, load_eq_latchFault s bytes offset hs h⟩)
    · exact .inr (.inl ⟨rfl, h, load_eq s bytes offset hs h⟩)

/-- Every address listed after a run of writes was listed before or lies below the end of the run. -/
theorem Memory.mem_writeBytes (m : Memory) (a : Nat) (bs : List Byte) (p : Host.Cell) (h : p ∈ m.writeBytes a bs) :
    p ∈ m ∨ p.1 < a + bs.length := by
  induction bs generalizing m a with
  | nil => exact .inl h
  | cons b bs ih =>
    rw [List.length_cons]
    rcases ih (m.write a b) (a + 1) h with hp | hp
    · rcases mem_write m a b p hp with hp | rfl
      · exact .inl hp
      · exact .inr (by omega)
    · exact .inr (by omega)

/-! ### A fault is precise and final (R204, R205) -/

/-- A step that raises a fault latches it on the state it found, or on that state with the opcode shown. -/
theorem step_raises_fault (s t : State) (f : Fault) (h : step s = .next t) (hs : s.fault = none)
    (ht : t.fault = some f) : t = s.latchFault f ∨ ∃ op, t = (s.setLastOpcode (some op)).latchFault f := by
  rcases step_cases s t h with ⟨g, hg, -⟩ | ⟨-, a, -, -, rfl⟩ | ⟨-, -, op, u, -, hu, rfl⟩
  · cases hs.symm.trans hg
  · obtain rfl := Option.some.inj ht
    exact .inl rfl
  · rw [State.fault_retire] at ht
    obtain ⟨-, rfl⟩ := exec_fault _ _ u f hu hs ht
    rw [State.retire_of_fault _ f ht, State.setPc_ownAddress_fetched]
    exact .inr ⟨op, rfl⟩

/-- A load that raises a fault latches it on the state it found. -/
theorem load_raises_fault (s : State) (bytes : List Byte) (offset : Nat) (f : Fault) (hs : s.fault = none)
    (ht : (s.load bytes offset).fault = some f) : s.load bytes offset = s.latchFault f := by
  rcases load_cases s bytes offset with ⟨g, hg, -⟩ | ⟨-, -, e⟩ | ⟨-, -, e⟩
  · cases hs.symm.trans hg
  · rw [e, State.fault_setMem, hs] at ht
    cases ht
  · rw [e] at ht ⊢
    obtain rfl := Option.some.inj ht
    rfl

/-- While a fault is recorded, a port call that is no reset answers the same state. -/
theorem portCall_of_fault (c : PortCall) (s t : State) (f : Fault) (hs : s.fault = some f)
    (h : portCall c s = .next t) : t = s ∨ ∃ v i m, c = .reset v i m := by
  cases c with
  | step => exact .inl (Host.Outcome.next.inj ((step_of_fault s f hs).symm.trans h)).symm
  | load bytes offset => cases h; exact .inl (load_of_fault s f bytes offset hs)
  | reset v i m => exact .inr ⟨v, i, m, rfl⟩
  | readFramebuffer | readRunning | readDiagnostics => cases h; exact .inl rfl

/-- Settles O9: `step_raises_fault` and `load_raises_fault` give the state with the fault latched; `portCall_of_fault` is
what can follow. -/
theorem fatalFaultIsPreciseAndFinal : Obligations.FatalFaultIsPreciseAndFinal := by
  refine ⟨fun s t f hs ht h => ?_, fun s f hs => ⟨step_of_fault s f hs,
    fun bytes offset => load_of_fault s f bytes offset hs, fun c t => portCall_of_fault c s t f hs, fun _ _ _ => rfl⟩⟩
  rcases h with h | ⟨bytes, offset, rfl⟩
  · rcases step_raises_fault s t f h hs ht with rfl | ⟨op, rfl⟩ <;> exact ⟨rfl, rfl⟩
  · rw [load_raises_fault s bytes offset f hs ht]
    exact ⟨rfl, rfl⟩

/-! ### At most one condition (R207, R219) -/

/-- A stub reached by decoding reports the word decoded (R180, R181, R201). -/
theorem StubReport.of_decodeWord {op : Word} {c : Condition} (h : StubReport (decodeWord op) c) :
    c = .unknownOpcode op ∨ c = .notImplemented op := by
  have henc := (decodeThenEncodeIsIdentity op).2
  generalize decodeWord op = i at h henc
  subst henc
  cases h with
  | unknown => exact .inl rfl
  | notImplemented => exact .inr rfl

/-- Settles O11: a step is halted, latches a fetch fault, or runs an instruction, which takes one fault, emits one report
or is quiet (`exec_cases`). -/
theorem stepEmitsAtMostOneCondition : Obligations.StepEmitsAtMostOneCondition := by
  intro s t h
  rcases step_cases s t h with ⟨f, -, rfl⟩ | ⟨hs, a, -, -, rfl⟩ | ⟨hs, hpc, op, u, hw, hu, rfl⟩
  · exact .inl rfl
  · exact .inr (.inr ⟨_, hs, rfl, rfl⟩)
  · rw [State.channel_retire, State.fault_retire]
    rcases exec_cases _ _ u hu with ⟨f, -, rfl⟩ | ⟨c, hc, rfl⟩ | hq
    · exact .inr (.inr ⟨f, hs, rfl, rfl⟩)
    · refine .inr (.inl ⟨op, fetches_of_fetchWord s op hs hpc hw, hs, ?_⟩)
      exact hc.of_decodeWord.imp (congrArg (s.channel ++ [·])) (congrArg (s.channel ++ [·]))
    · exact .inl hq.channel

/-! ### The invariant over port calls (R206, R215, R219, R230) -/

/-- A load keeps the invariant: bytes that fit are listed inside memory, and its fault has its cause. -/
theorem State.Inv.load {s : State} (hs : s.Inv) (bytes : List Byte) (offset : Nat) : (s.load bytes offset).Inv := by
  rcases load_cases s bytes offset with ⟨f, -, e⟩ | ⟨hf, hfits, e⟩ | ⟨-, hout, e⟩ <;> rw [e]
  · exact hs
  · exact { hs with
      memory_canonical := Memory.writeBytes_wf _ _ _ hs.memory_canonical
      memory_in_range := fun p hp =>
        (Memory.mem_writeBytes _ _ _ p hp).elim (hs.memory_in_range p) fun h => Nat.lt_of_lt_of_le h hfits
      fault_caused := fun _ h => nomatch hf.symm.trans h }
  · exact hs.latchFault _ hout

/-- The host's reset leaves a state with the invariant, whatever state it finds. -/
theorem State.inv_hostReset (s : State) (v : Vector Byte 16) (i : Addr) (image : List Byte) :
    (s.hostReset v i image).Inv where
  memory_canonical := Memory.hostReset_wf s v i image
  memory_in_range p hp := by
    rcases Memory.mem_writeBytes [] 0 (image.take s.memSize) p hp with h | h
    · cases h
    · rw [List.length_take] at h
      show p.1 < s.memSize
      omega
  pc_bounded := resetStateHasInvariant.pc_bounded
  stack_bounded k := by
    show (reset.stackAt k).toNat ≤ s.memSize
    rw [stackAt_reset]
    exact Nat.zero_le _
  fault_caused _ h := nomatch h
  fault_reported _ h := nomatch h

theorem portCall_keeps_inv (c : PortCall) (s t : State) (hs : s.Inv) (h : portCall c s = .next t) : t.Inv := by
  cases c with
  | step => exact stepKeepsInvariant s t hs h
  | load bytes offset => cases h; exact hs.load bytes offset
  | reset v i m => cases h; exact s.inv_hostReset v i m
  | readFramebuffer | readRunning | readDiagnostics => cases h; exact hs

/-- The invariant holds beside a refusal mark too: a marked run stays in its state until a reset leaves a new one. -/
theorem portRun_keeps_inv (mark : Option Refusal) (cs : List PortCall) (s t : State) (hs : s.Inv)
    (h : portRun mark cs s = .next t) : t.Inv := by
  induction cs generalizing mark s with
  | nil => cases mark <;> cases h; exact hs
  | cons c cs ih =>
    cases mark with
    | none =>
      cases hc : portCall c s with
      | next u => exact ih none u (portCall_keeps_inv c s u hs hc) ((portCalls_cons_next c cs s u hc).symm.trans h)
      | fault f => cases (portCalls_cons_fault c cs s f hc).symm.trans h
      | refused r => exact ih (some r) s hs ((portCalls_cons_refused c cs s r hc).symm.trans h)
    | some r =>
      by_cases hreset : ∃ v i m, c = .reset v i m
      · obtain ⟨v, i, m, rfl⟩ := hreset
        exact ih none _ (s.inv_hostReset v i m) ((portRun_marked_reset r v i m cs s).symm.trans h)
      · have hother := portRun_marked_other r c cs s fun v i m e => hreset ⟨v, i, m, e⟩
        exact ih (some r) s hs (hother.symm.trans h)

/-- Settles O21: `portRun_keeps_inv` from a host that holds no refusal mark. -/
theorem portCallSequencesKeepInvariant : Obligations.PortCallSequencesKeepInvariant :=
  portRun_keeps_inv none

end Sys2Proof.Machine
end

section
/-! PROOFS. Boot: the font's load, then the program's on the state the first one leaves (R232, R233). -/

namespace Sys2Proof.Machine

@[simp] theorem memSize_load (s : State) (bytes : List Byte) (offset : Nat) :
    (s.load bytes offset).memSize = s.memSize := by
  rcases load_cases s bytes offset with ⟨f, -, e⟩ | ⟨-, -, e⟩ | ⟨-, -, e⟩ <;> rw [e]
  · exact State.memSize_setMem s _
  · exact State.memSize_latchFault s _

/-- A load that fits records no fault, so a second load after it has its effect. -/
theorem fault_load_of_fits (s : State) (bytes : List Byte) (offset : Nat) (h : s.fault = none)
    (hf : offset + bytes.length ≤ s.memSize) : (s.load bytes offset).fault = none := by
  rw [load_eq s bytes offset h hf, State.fault_setMem, h]

/-- Settles O44: R55's account of a load (`loadCopiesTheBytesOrFaults`) for the font, then for the program, whose range
begins at 0x200 and so leaves the font's bytes. -/
theorem bootPlacesBothImages : Obligations.BootPlacesBothImages := by
  intro s font program hs hm hfont hprogram
  have hfits : 0 + font.length ≤ s.memSize := by omega
  have hfits' : 0x200 + program.length ≤ (s.load font 0).memSize := (memSize_load s font 0).symm ▸ hprogram
  obtain ⟨hin, hout, honly⟩ := loadCopiesTheBytesOrFaults.1 s font 0 hs hm hfits
  obtain ⟨hin', hout', honly'⟩ := loadCopiesTheBytesOrFaults.1 (s.load font 0) program 0x200
    (fault_load_of_fits s font 0 hs hfits) (Memory.load_wf s font 0 hm) hfits'
  refine ⟨fun k hk => ?_, hin', fun a ha ha' => ?_, honly.trans honly'⟩
  · calc (s.boot font program).mem.read k
      _ = (s.load font 0).mem.read k := hout' k (.inl (Nat.lt_of_lt_of_le hk hfont))
      _ = (s.load font 0).mem.read (0 + k) := by rw [Nat.zero_add]
      _ = font[k] := hin k hk
  · calc (s.boot font program).mem.read a
      _ = (s.load font 0).mem.read a := hout' a ha'
      _ = s.mem.read a := hout a (.inr ((Nat.zero_add _).symm ▸ ha))

end Sys2Proof.Machine
end
